-- ==== Sys2Proof/Word.lean ====
section
/-! DEFINITION. The words of the hardware and their plainest arithmetic (00_scope.md R6, R7, R8). -/

namespace Sys2Proof

/-- A register-port data word (00_scope.md R6: the port has a fixed data width of 32 bits). -/
abbrev Word := BitVec 32

/-- A payload byte (30_encoding.md R82). -/
abbrev Byte := BitVec 8

/-- A byte offset of the register port, the `addr` input (00_scope.md R6). -/
abbrev Offset := BitVec 8

/-- A repetition count, COUNT_W = 16 bits, unsigned (00_scope.md R5). -/
abbrev Count := BitVec 16

/-- A Signal, or the contents of FB: 192 levels, bit i the level of tick i, `true` = mark
(00_scope.md R3, R8; 10_state.md R25). -/
abbrev Signal := BitVec 192

/-- popcount(x): the number of 1 bits of x (00_scope.md R7). -/
def popcount {n : Nat} (x : BitVec n) : Nat := (List.range n).countP fun i => x.getLsbD i

end Sys2Proof
end

