-- ==== Sys2Proof/Config.lean ====
section
/-! DEFINITION. The constants the spec fixes, and what an implementation fixes (00_scope.md section 3).
TICK_CYCLES is a parameter the spec leaves open (R4): it is a field of State, so every claim about all states is a claim
about every value of it. -/

namespace Sys2Proof.Config

/-- MAX_LEN, the number of levels of every Signal (00_scope.md R3). -/
def maxLen : Nat := 192

/-- The leader mark, in ticks (40_signal_construction.md R101). -/
def leaderMark : Nat := 16

/-- The leader space of a full frame, in ticks (40_signal_construction.md R101). -/
def frameSpace : Nat := 8

/-- The leader space of the repeat code, in ticks (40_signal_construction.md R101). -/
def repeatSpace : Nat := 4

/-- COUNT_W, the width of the repetition count (00_scope.md R5). -/
def countW : Nat := 16

/-- TICK in nanoseconds: 562.5 µs (00_scope.md R2). -/
def tickNs : Nat := 562500

/-- The duration of a number of ticks, in nanoseconds (00_scope.md R2: every duration is a multiple of TICK). -/
def durationNs (ticks : Nat) : Nat := ticks * tickNs

/-- What R4 asks of TICK_CYCLES: it is at least 1, and TICK_CYCLES = F_CLK × 562.5 µs, with F_CLK in hertz, any rational
number (00_scope.md R4). -/
def ClockFits (fClkHz : Rat) (tickCycles : Nat) : Prop :=
  1 ≤ tickCycles ∧ (tickCycles : Rat) = fClkHz * (tickNs : Rat) / 1000000000

/-- TCNT_W: the least number of bits that holds TICK_CYCLES − 1, and at least 1 (10_state.md R32). -/
def tcntW (tickCycles : Nat) : Nat := max 1 (Nat.size (tickCycles - 1))

/-- DESIGN CHOICE (notes/assumptions/3.md; unsafe for a claim that rests on it, and none does): the TICK_CYCLES that
`State.reset` names. The spec leaves it OPEN (R4); 4 is the value its own vectors and programs use (95_test_vectors.md
Part 3). -/
def resetTickCycles : Nat := 4

end Sys2Proof.Config
end

