-- ==== Sys2Proof/Syntax.lean ====
section
/-! DEFINITION. The command set (spec/opcode_table.json, one constructor a row) and the host's assembly lines
(30_encoding.md R81, R90 to R92). -/

namespace Sys2Proof

/-- One command of CMD32 (30_encoding.md R80, R81). Every constructor carries the COUNT field as the word has it: only
TX_TIMES and TX_REPEAT read it (R83), for the others any value is legal and has no effect (R87). -/
inductive Instr where
  /-- NOP, OP 0 (41_transmitter.md R157). -/
  | nop (count : Count)
  /-- ENC_STD, OP 1 (40_signal_construction.md R110). -/
  | encStd (count : Count)
  /-- ENC_EXT, OP 2 (40_signal_construction.md R111). -/
  | encExt (count : Count)
  /-- ENC_RAW, OP 3 (40_signal_construction.md R112). -/
  | encRaw (count : Count)
  /-- ENC_REP, OP 4 (40_signal_construction.md R113). -/
  | encRep (count : Count)
  /-- TX_ONCE, OP 5 (41_transmitter.md R153). -/
  | txOnce (count : Count)
  /-- TX_TIMES, OP 6, n = COUNT (41_transmitter.md R154). -/
  | txTimes (n : Count)
  /-- TX_REPEAT, OP 7, n = COUNT (41_transmitter.md R155). -/
  | txRepeat (n : Count)
  /-- ABORT, OP 8 (41_transmitter.md R156). -/
  | abort (count : Count)
  deriving DecidableEq, Repr

/-- The register names of the port (20_memory.md R63, 30_encoding.md R91). -/
inductive Reg where
  | cmd | data | status | err | sinkcnt | tickcfg | tcnt | txmode
  | frame0 | frame1 | frame2 | frame3 | frame4 | frame5
  deriving DecidableEq, Repr

/-- Which command a command line of 30_encoding.md R90 writes. -/
inductive CmdName where
  | nop | encStd | encExt | encRaw | encRep | txOnce | abort
  deriving DecidableEq, Repr

/-- One line of a host program: a command line (30_encoding.md R90), a register access (R91), or the loop `wait` (R92).
Operands are the numbers as written, so a line can be ill-formed. -/
inductive Line where
  /-- `nop`, `enc.std`, … : a command without operand. -/
  | cmd (c : CmdName)
  /-- `tx.times n`. -/
  | txTimes (n : Nat)
  /-- `tx.repeat n`. -/
  | txRepeat (n : Nat)
  /-- `wr OFF, V`. -/
  | wr (off v : Nat)
  /-- `rd OFF`. -/
  | rd (off : Nat)
  /-- `wait`: repeat `rd STATUS` until bit 0 of the result is 0. -/
  | wait
  deriving DecidableEq, Repr

/-- The pseudo-instructions of 30_encoding.md R92 (`wait` is a `Line`). -/
inductive Pseudo where
  | ldData (v : Nat)
  | wait
  | clrErr
  | sendStd (a c : Nat)
  | sendExt (a c : Nat)
  | sendRaw (v : Nat)
  | holdStd (a c n : Nat)
  | holdExt (a c n : Nat)
  | resend (n : Nat)
  deriving DecidableEq, Repr

end Sys2Proof
end

