-- ==== Sys2Proof/WellFormed.lean ====
section
/-! DEFINITION. Which terms of the syntax the spec admits. -/

namespace Sys2Proof

/-- A command is well-formed when its COUNT fits COUNT_W bits (00_scope.md R5, 30_encoding.md R83). The type of COUNT is
those 16 bits, so every command is: a larger n is not expressible (93_implementation_defined.md I14). -/
def Instr.wf : Instr → Bool
  | .nop c | .encStd c | .encExt c | .encRaw c | .encRep c | .txOnce c | .txTimes c | .txRepeat c | .abort c =>
    c.toNat < 2 ^ Config.countW

/-- A host line is well-formed when its n is in 0..65535 (30_encoding.md R90: an assembler refuses a larger one), its OFF
is a word offset of the port (R91, 20_memory.md R60), and its V is a 32-bit word. -/
def Line.wf : Line → Bool
  | .cmd _ => true
  | .txTimes n | .txRepeat n => n < 2 ^ Config.countW
  | .wr off v => off ≤ 0xFC && off % 4 == 0 && v < 2 ^ 32
  | .rd off => off ≤ 0xFC && off % 4 == 0
  | .wait => true

/-- The operand ranges of 30_encoding.md R92: A is 0..255 for `.std` and 0..65535 for `.ext`, C is 0..255, N is 0..65535,
V a 32-bit word. -/
def Pseudo.wf : Pseudo → Bool
  | .ldData v | .sendRaw v => v < 2 ^ 32
  | .wait | .clrErr => true
  | .sendStd a c => a < 256 && c < 256
  | .sendExt a c => a < 65536 && c < 256
  | .holdStd a c n => a < 256 && c < 256 && n < 2 ^ Config.countW
  | .holdExt a c n => a < 65536 && c < 256 && n < 2 ^ Config.countW
  | .resend n => n < 2 ^ Config.countW

end Sys2Proof
end

