-- ==== Sys2Proof/Decode.lean ====
section
/-! DEFINITION. Decoding a CMD word, total, rejecting by name, and encoding a command (30_encoding.md R80 to R88). -/

namespace Sys2Proof

/-- Why a CMD word is no command: both reasons are one outcome of the hardware, ERR.ILLEGAL (30_encoding.md R84). -/
inductive DecodeError where
  /-- OP is 9 to 15 (30_encoding.md R81, R87). -/
  | reservedOpcode
  /-- RSV is not 0 (30_encoding.md R80, R87). -/
  | reservedBits
  deriving DecidableEq, Repr

/-- OP, bits 3:0 (30_encoding.md R80). -/
def opField (w : Word) : BitVec 4 := w.extractLsb' 0 4

/-- RSV, bits 15:4 (30_encoding.md R80). -/
def rsvField (w : Word) : BitVec 12 := w.extractLsb' 4 12

/-- COUNT, bits 31:16 (30_encoding.md R80). -/
def countField (w : Word) : Count := w.extractLsb' 16 16

/-- The command a CMD word stands for (30_encoding.md R81, R84). No state changes how a word decodes (R88). -/
def decode (w : Word) : Except DecodeError Instr :=
  if rsvField w ≠ 0 then .error .reservedBits
  else
    match (opField w).toNat with
    | 0 => .ok (.nop (countField w))
    | 1 => .ok (.encStd (countField w))
    | 2 => .ok (.encExt (countField w))
    | 3 => .ok (.encRaw (countField w))
    | 4 => .ok (.encRep (countField w))
    | 5 => .ok (.txOnce (countField w))
    | 6 => .ok (.txTimes (countField w))
    | 7 => .ok (.txRepeat (countField w))
    | 8 => .ok (.abort (countField w))
    | _ => .error .reservedOpcode

/-- CMD32 from its fields, RSV = 0 (30_encoding.md R80). -/
def cmdWord (count : Count) (op : BitVec 4) : Word := count ++ 0#12 ++ op

/-- The CMD word of a command (30_encoding.md R81, R90). -/
def encode : Instr → Word
  | .nop c => cmdWord c 0x0
  | .encStd c => cmdWord c 0x1
  | .encExt c => cmdWord c 0x2
  | .encRaw c => cmdWord c 0x3
  | .encRep c => cmdWord c 0x4
  | .txOnce c => cmdWord c 0x5
  | .txTimes n => cmdWord n 0x6
  | .txRepeat n => cmdWord n 0x7
  | .abort c => cmdWord c 0x8

/-- A CMD write of w is legal iff w[3:0] ≤ 8 and w[15:4] = 0 (30_encoding.md R84). -/
def legalWord (w : Word) : Bool := opField w ≤ 8 && rsvField w == 0

/-- The CMD word that stands in the low `nbits` bits of `w`, every bit above them 0: a command is one 32-bit word
(30_encoding.md R88), so the table's bit numbers are the word's own. -/
def tableWord (nbits w : Nat) : Word := BitVec.ofNat 32 (w % 2 ^ nbits)

/-- What the decoder reads from a word of spec/opcode_table.json. -/
def decodeTableWord (nbits w : Nat) : Option Instr :=
  match decode (tableWord nbits w) with
  | .ok i => some i
  | .error _ => none

end Sys2Proof
end

