-- ==== Sys2Proof/Machine/State.lean ====
section
/-! DEFINITION. The state of the block, plain data, and its reset value (10_state.md R20 to R44). -/

namespace Sys2Proof.Machine

/-- MODE: the playback mode of the current or last accepted transmit command (10_state.md R28). The value 3 is never
written, so the type has three values (93_implementation_defined.md I9). -/
inductive Mode where
  /-- 0 = ONCE. -/
  | once
  /-- 1 = TIMES. -/
  | times
  /-- 2 = REPEAT. -/
  | repeatCode
  deriving DecidableEq, Repr

/-- PHASE: the repeat-mode FSM state (10_state.md R29). The value 3 is never written (93_implementation_defined.md I10). -/
inductive Phase where
  /-- 0 = IDLE: no playback. -/
  | idle
  /-- 1 = FRAME: playing FB. -/
  | frame
  /-- 2 = REPEAT: playing RS. -/
  | repeatCode
  deriving DecidableEq, Repr

/-- The error causes, one sticky ERR bit each (60_exceptions.md R200). -/
inductive ErrorCode where
  /-- Code 0: a CMD write with OP ≥ 9 or RSV ≠ 0 (60_exceptions.md R201). -/
  | illegal
  /-- Code 1: ENC_* or TX_* while BUSY = 1 (60_exceptions.md R202). -/
  | reject
  /-- Code 2: TX_* while FBV = 0 (60_exceptions.md R203). -/
  | noframe
  /-- Code 3: a tick boundary with ABORT_REQ = 1 (60_exceptions.md R204). -/
  | aborted
  /-- Code 4: `tb_fault` = 1 at issue or while BUSY = 1 (60_exceptions.md R205). -/
  | timebase
  deriving DecidableEq, Repr

/-- The levels of the block's input ports at one rising edge of `clk` (10_state.md R20). -/
structure Pins where
  /-- `rst_n`, active low. -/
  rstN : Bool
  /-- `addr`, the byte offset. -/
  addr : Offset
  /-- `wdata`. -/
  wdata : Word
  /-- `we`, write request for this edge. -/
  we : Bool
  /-- `re`, read request for this edge. -/
  re : Bool
  /-- `tb_fault`, the time-base fault indication. -/
  tbFault : Bool
  deriving DecidableEq, Repr

/-- What the environment does next, one event a step. DESIGN CHOICE (notes/assumptions/1.md): the inputs of the step
stand in State as data, since the step is a function of the state alone. -/
inductive Event where
  /-- A rising edge of `clk` with these input levels (00_scope.md R10, R11). -/
  | edge (p : Pins)
  /-- The host's `wait`: edges with `rd STATUS`, until a read returns BUSY = 0 (30_encoding.md R92;
  notes/assumptions/14.md). -/
  | poll
  /-- `rst_n` falls between two edges: reset asserts asynchronously (70_reset_and_hazards.md R230). -/
  | resetFalls
  /-- `clk` stops for good: no edge comes any more (60_exceptions.md R219; notes/assumptions/8.md). -/
  | clockStops
  deriving DecidableEq, Repr

/-- The state: every state element of 10_state.md R44, then the model's own fields. -/
structure State where
  /-- DATA (10_state.md R23). -/
  data : Word
  /-- FB, the frame buffer: bit i is FB[i] (10_state.md R25). -/
  fb : Signal
  /-- FBV, frame buffer valid (10_state.md R26). -/
  fbv : Bool
  /-- MODE (10_state.md R28). -/
  mode : Mode
  /-- PHASE (10_state.md R29). -/
  phase : Phase
  /-- IDX, the index of the next level to deliver (10_state.md R30). -/
  idx : BitVec 8
  /-- REM, the blocks still to play after the current one (10_state.md R31). -/
  rem : Count
  /-- TCNT, the tick counter, a number in 0..TICK_CYCLES − 1 (10_state.md R32; notes/assumptions/13.md). -/
  tcnt : Nat
  /-- ABORT_REQ, a pending cancellation (10_state.md R33). -/
  abortReq : Bool
  /-- OUT, driven on `ir_out` (10_state.md R34). -/
  out : Bool
  /-- STB, driven on `ir_stb` (10_state.md R35). -/
  stb : Bool
  /-- BUSY, driven on `busy` (10_state.md R36). -/
  busy : Bool
  /-- DONE (10_state.md R37). -/
  done : Bool
  /-- SINKCNT, the deliveries since the last accepted transmit command (10_state.md R38). -/
  sinkcnt : Word
  /-- ERR, one sticky bit per error cause (10_state.md R39). -/
  err : BitVec 5
  /-- `rdata` as the host samples it at the last edge (20_memory.md R62; DEDUCED, notes/assumptions/6.md). -/
  rdata : Word
  /-- The model's own: TICK_CYCLES, the OPEN parameter of 00_scope.md R4; no step changes it
  (notes/assumptions/3.md). -/
  tickCycles : Nat
  /-- The model's own: `tb_fault` as sampled at the edge under way (10_state.md R20; notes/assumptions/5.md). -/
  tbFault : Bool
  /-- The model's own: what the environment does next, oldest first. When the list is empty, edges keep coming with
  `rst_n` = 1, no access and no time-base fault (DESIGN CHOICE, notes/assumptions/2.md). -/
  inputs : List Event
  deriving DecidableEq, Repr

/-- The reasons a run stops with a fault: none. The block has no traps (60_exceptions.md R200, R211), and a stopped clock
"is a stuck run, not a fault" (R219). -/
inductive Fault where
  deriving DecidableEq, Repr

/-- The reasons a step is refused. -/
inductive Refusal where
  /-- An instruction that has no meaning yet, by its mnemonic. Raised only in the arms of `exec`; none is left. Safe. -/
  | notModelled (mnemonic : String)
  /-- `we` = `re` = 1 at one edge, a host protocol violation; "The model refuses such a step" (20_memory.md R60,
  93_implementation_defined.md I2). Raised by `step` on such an edge, by no instruction. Safe. -/
  | hostProtocolViolation
  deriving DecidableEq, Repr

/-- The state right after reset, for a given TICK_CYCLES and nothing queued (10_state.md R44, 70_reset_and_hazards.md
R230). -/
def State.afterReset (tickCycles : Nat) : State where
  data := 0
  fb := 0
  fbv := false
  mode := .once
  phase := .idle
  idx := 0
  rem := 0
  tcnt := 0
  abortReq := false
  out := false
  stb := false
  busy := false
  done := false
  sinkcnt := 0
  err := 0
  rdata := 0
  tickCycles := tickCycles
  tbFault := false
  inputs := []

/-- The machine right after reset. Its TICK_CYCLES is a DESIGN CHOICE (notes/assumptions/3.md). -/
def State.reset : State := State.afterReset Config.resetTickCycles

end Sys2Proof.Machine
end

