-- ==== Sys2Proof/Machine/Operands.lean ====
section
/-! DEFINITION. The operands of the commands and the payload bit lists they give (30_encoding.md R82, R83, R89;
40_signal_construction.md R104 to R106). -/

namespace Sys2Proof.Machine

/-- A8 of ENC_STD: DATA[7:0] (30_encoding.md R82). -/
def stdAddress (data : Word) : Byte := data.extractLsb' 0 8

/-- C8 of ENC_STD: DATA[15:8] (30_encoding.md R82). -/
def stdCommand (data : Word) : Byte := data.extractLsb' 8 8

/-- A16 of ENC_EXT: DATA[15:0] (30_encoding.md R82). -/
def extAddress (data : Word) : BitVec 16 := data.extractLsb' 0 16

/-- C8 of ENC_EXT: DATA[23:16] (30_encoding.md R82). -/
def extCommand (data : Word) : Byte := data.extractLsb' 16 8

/-- V32 of ENC_RAW: DATA[31:0] (30_encoding.md R82). -/
def rawValue (data : Word) : Word := data

/-- lsbf(x) = [x[0], x[1], …, x[7]] (40_signal_construction.md R104). -/
def lsbf (x : Byte) : List Bool := (List.range 8).map x.getLsbD

/-- bits_std(a, c) (40_signal_construction.md R104). -/
def bitsStd (a c : Byte) : List Bool := lsbf a ++ lsbf (~~~a) ++ lsbf c ++ lsbf (~~~c)

/-- bits_ext(a, c) (40_signal_construction.md R105). -/
def bitsExt (a : BitVec 16) (c : Byte) : List Bool :=
  lsbf (a.extractLsb' 0 8) ++ lsbf (a.extractLsb' 8 8) ++ lsbf c ++ lsbf (~~~c)

/-- bits_raw(v) = [v[31], v[30], …, v[0]] (40_signal_construction.md R106). -/
def bitsRaw (v : Word) : List Bool := (List.range 32).map fun i => v.getLsbD (31 - i)

/-- rev8(x): the 8 bits of x reversed, rev8(x)[i] = x[7 − i] (00_scope.md R7). -/
def rev8 (x : Byte) : Byte := x.reverse

/-- rawOfStd(a, c), the raw value whose frame is that of ENC_STD(a, c) (40_signal_construction.md R123). -/
def rawOfStd (a c : Byte) : Word := rev8 a ++ rev8 (~~~a) ++ rev8 c ++ rev8 (~~~c)

/-- rawOfExt(A, c), the raw value whose frame is that of ENC_EXT(A, c) (40_signal_construction.md R123). -/
def rawOfExt (a : BitVec 16) (c : Byte) : Word :=
  rev8 (a.extractLsb' 0 8) ++ rev8 (a.extractLsb' 8 8) ++ rev8 c ++ rev8 (~~~c)

end Sys2Proof.Machine
end

