-- ==== Sys2Proof/Machine/Signals.lean ====
section
/-! DEFINITION. Building a Signal, the repeat-code constant, and a Signal's words and rendering
(40_signal_construction.md R101 to R108; 10_state.md R27, R43; 42_diagnostics.md R190, R191). -/

namespace Sys2Proof.Machine

/-- pack(b): bit 0 is a mark and one space, bit 1 a mark and three spaces (40_signal_construction.md R102). -/
def pack (b : Bool) : List Bool := if b then [true, false, false, false] else [true, false]

/-- The content of a Signal before padding: leader mark, leader space, packed payload, trailing mark
(40_signal_construction.md R101, R103, R107). -/
def content (spaceLen : Nat) (bits : List Bool) : List Bool :=
  List.replicate Config.leaderMark true ++ List.replicate spaceLen false ++ bits.flatMap pack ++ [true]

/-- padTo(k, xs) = take(k, xs ++ rep(k, false)): pad with spaces, or drop the excess (00_scope.md R8). -/
def padTo (k : Nat) (xs : List Bool) : List Bool := (xs ++ List.replicate k false).take k

/-- The 192-bit register whose element i is element i of the list (10_state.md R25). -/
def signalOf (xs : List Bool) : Signal := (BitVec.ofBoolListLE xs).setWidth 192

/-- build(space_len, bits) (40_signal_construction.md R103, R108). -/
def build (spaceLen : Nat) (bits : List Bool) : Signal := signalOf (padTo Config.maxLen (content spaceLen bits))

/-- RS = build(4, []), the repeat-code constant (10_state.md R27). -/
def rs : Signal := build Config.repeatSpace []

/-- S[i] (00_scope.md R8). -/
def level (s : Signal) (i : Nat) : Bool := s.getLsbD i

/-- The levels of a Signal in time order (00_scope.md R8). -/
def levels (s : Signal) : List Bool := (List.range Config.maxLen).map (level s)

/-- FRAMEj: bit b is FB[32·j + b] (42_diagnostics.md R190). -/
def frameWord (s : Signal) (j : Nat) : Word := s.extractLsb' (32 * j) 32

/-- The canonical text of a Signal, as characters: '1' for mark, '0' for space, in sequence order (42_diagnostics.md
R191). The host makes it; the block produces no characters. -/
def render (s : Signal) : List Char := (levels s).map fun b => if b then '1' else '0'

/-- The same text as a host makes it from the six FRAME words: character i is bit i mod 32 of FRAME(i div 32)
(42_diagnostics.md R191). -/
def renderWords (frame : Nat → Word) : List Char :=
  (List.range Config.maxLen).map fun i => if (frame (i / 32)).getLsbD (i % 32) then '1' else '0'

end Sys2Proof.Machine
end

