-- ==== Sys2Proof/Machine/Flags.lean ====
section
/-! DEFINITION. The status flags, the ERR bits and the register views a host reads (10_state.md R40 to R43, R46;
20_memory.md R62 to R64). -/

namespace Sys2Proof.Machine

/-- The MODE codes (10_state.md R28). -/
def Mode.code : Mode → BitVec 2
  | .once => 0
  | .times => 1
  | .repeatCode => 2

/-- The PHASE codes (10_state.md R29). -/
def Phase.code : Phase → BitVec 2
  | .idle => 0
  | .frame => 1
  | .repeatCode => 2

/-- The cause codes, which are the ERR bit numbers (60_exceptions.md R200). -/
def ErrorCode.code : ErrorCode → Nat
  | .illegal => 0
  | .reject => 1
  | .noframe => 2
  | .aborted => 3
  | .timebase => 4

/-- The ERR register with the bit of one cause set (60_exceptions.md R200). -/
def ErrorCode.bit (e : ErrorCode) : BitVec 5 := 1#5 <<< e.code

/-- STATUS: REM, IDX, PHASE, a reserved 0, ABORT_PEND, LEVEL, FBV, DONE, BUSY from bit 31 down (10_state.md R40). -/
def statusWord (s : State) : Word :=
  s.rem ++ s.idx ++ s.phase.code ++ 0#1 ++ BitVec.ofBool s.abortReq ++ BitVec.ofBool s.out ++ BitVec.ofBool s.fbv ++
    BitVec.ofBool s.done ++ BitVec.ofBool s.busy

/-- The word number of an offset: `addr[7:2]`; `addr[1:0]` is ignored (20_memory.md R60, R65). -/
def wordIndex (addr : Offset) : Nat := addr.toNat / 4

/-- The register view at an offset, computed from a state (20_memory.md R62; 10_state.md R40 to R43). CMD and the
reserved offsets read 0. TICKCFG and TCNT show 32 bits (DEDUCED, notes/assumptions/4.md). -/
def readReg (s : State) (addr : Offset) : Word :=
  match wordIndex addr with
  | 1 => s.data
  | 2 => statusWord s
  | 3 => s.err.setWidth 32
  | 4 => s.sinkcnt
  | 5 => BitVec.ofNat 32 s.tickCycles
  | 6 => BitVec.ofNat 32 s.tcnt
  | 7 => s.mode.code.setWidth 32
  | 8 => frameWord s.fb 0
  | 9 => frameWord s.fb 1
  | 10 => frameWord s.fb 2
  | 11 => frameWord s.fb 3
  | 12 => frameWord s.fb 4
  | 13 => frameWord s.fb 5
  | _ => 0

/-- The offsets of the named registers (20_memory.md R63). -/
def regOffset : Reg → Offset
  | .cmd => 0x00
  | .data => 0x04
  | .status => 0x08
  | .err => 0x0C
  | .sinkcnt => 0x10
  | .tickcfg => 0x14
  | .tcnt => 0x18
  | .txmode => 0x1C
  | .frame0 => 0x20
  | .frame1 => 0x24
  | .frame2 => 0x28
  | .frame3 => 0x2C
  | .frame4 => 0x30
  | .frame5 => 0x34

/-- The output ports (10_state.md R20). -/
structure Outputs where
  /-- `rdata`. -/
  rdata : Word
  /-- `ir_out` = OUT. -/
  irOut : Bool
  /-- `ir_stb` = STB. -/
  irStb : Bool
  /-- `busy` = BUSY. -/
  busy : Bool
  deriving DecidableEq, Repr

/-- What the output ports show (10_state.md R20, R34 to R36). -/
def outputs (s : State) : Outputs := { rdata := s.rdata, irOut := s.out, irStb := s.stb, busy := s.busy }

/-- Byte k of a register word, for a host bus with byte addresses: little-endian (20_memory.md R67). -/
def byteLane (v : Word) (k : Nat) : Byte := v.extractLsb' (8 * k) 8

/-- The host byte address of byte k of the word at an offset; BASE is the platform's (20_memory.md R63, R67). -/
def hostByteAddress (base : Nat) (off : Offset) (k : Nat) : Nat := base + off.toNat + k

end Sys2Proof.Machine
end

