-- ==== Sys2Proof/Machine/Ops.lean ====
section
/-! DEFINITION. The operations every command and every edge is made of: recording and acknowledging an error, reset, the
transmitter's step, and the combination of the host's access with it at one edge (41_transmitter.md, 60_exceptions.md,
70_reset_and_hazards.md R230, R244). -/

namespace Sys2Proof.Machine

/-- `raise Error(CODE)`: set one ERR bit; nothing is redirected, saved or stalled (60_exceptions.md R200). This is all the
block has for taking an exception. -/
def raiseError (e : ErrorCode) (s : State) : State := { s with err := s.err ||| e.bit }

/-- The host's acknowledgement, all the block has for a return: the ERR bits that are 1 in the mask are cleared
(10_state.md R41, 60_exceptions.md R212). -/
def clearErrors (mask : BitVec 5) (s : State) : State := { s with err := s.err &&& ~~~mask }

/-- Reset: every state element takes its reset value (70_reset_and_hazards.md R230, 10_state.md R44). The parameter and the
environment's fields are no state elements and stay. -/
def holdReset (s : State) : State :=
  { State.afterReset s.tickCycles with tbFault := s.tbFault, inputs := s.inputs }

/-- Deliver(lvl), one sink invocation (41_transmitter.md R149). -/
def deliver (lvl : Bool) (s : State) : State := { s with out := lvl, stb := true, sinkcnt := s.sinkcnt + 1 }

/-- The end of a playback by abort, less its error (41_transmitter.md R147). -/
def stopPlayback (s : State) : State :=
  { s with out := false, busy := false, phase := .idle, idx := 0, rem := 0, abortReq := false }

/-- A pending abort taken at a tick boundary (41_transmitter.md R147). -/
def abortEnd (s : State) : State := raiseError .aborted (stopPlayback s)

/-- A time-base fault during a playback (41_transmitter.md R148). -/
def faultEnd (s : State) : State := raiseError .timebase { stopPlayback s with tcnt := 0 }

/-- The level the sequencer picks (41_transmitter.md R146). -/
def currentLevel (s : State) : Bool :=
  match s.phase with
  | .frame => level s.fb s.idx.toNat
  | _ => level rs s.idx.toNat

/-- A tick boundary with no abort pending: deliver one level and advance (41_transmitter.md R146). -/
def tickStep (s : State) : State :=
  let d := deliver (currentLevel s) s
  if s.idx < 191 then { d with idx := s.idx + 1 }
  else if s.rem = 0 then { d with idx := 0, busy := false, phase := .idle, done := true }
  else { d with idx := 0, rem := s.rem - 1, phase := if s.mode = .repeatCode then .repeatCode else .frame }

/-- The transmitter's whole step at an edge with `rst_n` = 1 (41_transmitter.md R159, R142 to R149). -/
def txStep (s : State) : State :=
  let s0 := { s with stb := false }
  if s.busy = false then s0
  else if s.tbFault then faultEnd s0
  else if s.tcnt = s.tickCycles - 1 then
    if s.abortReq then abortEnd { s0 with tcnt := 0 } else tickStep { s0 with tcnt := 0 }
  else { s0 with tcnt := s.tcnt + 1 }

/-- What the host's access asks for at one edge, decided from the state before the edge (70_reset_and_hazards.md R244). -/
inductive HostAction where
  /-- No effect: no access, a read, an ignored write, NOP. -/
  | nothing
  /-- DATA <- w (20_memory.md R61). -/
  | writeData (w : Word)
  /-- A write to ERR: clear the bits that are 1 in the mask (10_state.md R41). -/
  | clearErr (mask : BitVec 5)
  /-- An issue-time error (60_exceptions.md R208). -/
  | raise (e : ErrorCode)
  /-- An accepted encoder command: FB <- sig, FBV <- 1 (40_signal_construction.md R100). -/
  | frame (sig : Signal)
  /-- An accepted transmit command: start(mode, blocks, rem0) (41_transmitter.md section 6). -/
  | start (mode : Mode) (blocks : Nat) (rem0 : Count)
  /-- An accepted ABORT (41_transmitter.md R156). -/
  | abort
  deriving DecidableEq, Repr

/-- start(mode, blocks, rem0), the shared start action of the transmit commands (41_transmitter.md section 6). -/
def startPlayback (mode : Mode) (blocks : Nat) (rem0 : Count) (s : State) : State :=
  if blocks = 0 then { s with mode := mode, sinkcnt := 0, done := true, abortReq := false }
  else
    { s with
      mode := mode, sinkcnt := 0, done := false, abortReq := false, busy := true, phase := .frame, idx := 0, rem := rem0,
      tcnt := 0 }

/-- abort_cmd(): ABORT_REQ <- 1 if BUSY = 1 before the edge and the transmitter's step at the edge does not end the
playback (41_transmitter.md R156). `before` is the state before the edge, `s` the state the transmitter's step left. -/
def requestAbort (before s : State) : State :=
  if before.busy && s.busy then { s with abortReq := true } else s

/-- The host's writes at an edge but for the clearing of ERR bits, laid over the transmitter's (70_reset_and_hazards.md
R244). `before` is the state before the edge. -/
def hostWrites (before : State) (s : State) : HostAction → State
  | .nothing => s
  | .writeData w => { s with data := w }
  | .clearErr _ => s
  | .raise e => raiseError e s
  | .frame sig => { s with fb := sig, fbv := true }
  | .start mode blocks rem0 => startPlayback mode blocks rem0 s
  | .abort => requestAbort before s

/-- The ERR bits a host access clears (10_state.md R41). -/
def clearMask : HostAction → BitVec 5
  | .clearErr mask => mask
  | _ => 0

/-- One edge with `rst_n` = 1: the host's access and the transmitter's step, both computed from the state before the edge,
and combined (70_reset_and_hazards.md R244). ERR bits the host clears are cleared first, so a bit set at this edge by
either side survives: new = (ERR & ~clear) | host_raised | tx_raised. `rd` is what `rdata` shows (20_memory.md R62). -/
def runEdge (a : HostAction) (rd : Word) (s : State) : State :=
  { hostWrites s (txStep (clearErrors (clearMask a) s)) a with rdata := rd }

end Sys2Proof.Machine
end

