-- ==== Sys2Proof/Machine/Encoder.lean ====
section
/-! DEFINITION. The encoder commands ENC_STD, ENC_EXT, ENC_RAW, ENC_REP (40_signal_construction.md R100, R110 to R113).
A meaning is the whole edge at which the command is written: its own effect beside the transmitter's step
(notes/assumptions/10.md). -/

namespace Sys2Proof.Machine

/-- What an encoder command asks for: REJECT while BUSY = 1, else the Signal goes to FB (30_encoding.md R85, R86). -/
def encodeAction (sig : Signal) (s : State) : HostAction := if s.busy then .raise .reject else .frame sig

/-- ENC_STD (40_signal_construction.md R110). -/
def execEncStd (s : State) : Host.Outcome State Fault Refusal :=
  .next (runEdge
    (encodeAction (build Config.frameSpace (bitsStd (stdAddress s.data) (stdCommand s.data))) s) 0 s)

/-- ENC_EXT (40_signal_construction.md R111). -/
def execEncExt (s : State) : Host.Outcome State Fault Refusal :=
  .next (runEdge
    (encodeAction (build Config.frameSpace (bitsExt (extAddress s.data) (extCommand s.data))) s) 0 s)

/-- ENC_RAW (40_signal_construction.md R112). -/
def execEncRaw (s : State) : Host.Outcome State Fault Refusal :=
  .next (runEdge (encodeAction (build Config.frameSpace (bitsRaw (rawValue s.data))) s) 0 s)

/-- ENC_REP (40_signal_construction.md R113). -/
def execEncRep (s : State) : Host.Outcome State Fault Refusal :=
  .next (runEdge (encodeAction (build Config.repeatSpace []) s) 0 s)

end Sys2Proof.Machine
end

