-- ==== Sys2Proof/Machine/Playback.lean ====
section
/-! DEFINITION. The transmitter's commands TX_ONCE, TX_TIMES, TX_REPEAT, ABORT and NOP (41_transmitter.md R153 to R157),
and the sequence of levels a transmit command plays (R152). -/

namespace Sys2Proof.Machine

/-- What a transmit command asks for, with the checks in their order: REJECT, NOFRAME, TIMEBASE, start (30_encoding.md
R85, 60_exceptions.md R208). -/
def transmitAction (mode : Mode) (blocks : Nat) (rem0 : Count) (s : State) : HostAction :=
  if s.busy then .raise .reject
  else if s.fbv = false then .raise .noframe
  else if s.tbFault then .raise .timebase
  else .start mode blocks rem0

/-- TX_ONCE: start(ONCE, 1, 0) (41_transmitter.md R153). -/
def execTxOnce (s : State) : Host.Outcome State Fault Refusal :=
  .next (runEdge (transmitAction .once 1 0 s) 0 s)

/-- TX_TIMES: start(TIMES, n, n − 1) (41_transmitter.md R154). -/
def execTxTimes (n : Count) (s : State) : Host.Outcome State Fault Refusal :=
  .next (runEdge (transmitAction .times n.toNat (n - 1) s) 0 s)

/-- TX_REPEAT: start(REPEAT, 1 + n, n) (41_transmitter.md R155). -/
def execTxRepeat (n : Count) (s : State) : Host.Outcome State Fault Refusal :=
  .next (runEdge (transmitAction .repeatCode (1 + n.toNat) n s) 0 s)

/-- ABORT, never rejected or refused (41_transmitter.md R156). -/
def execAbort (s : State) : Host.Outcome State Fault Refusal :=
  .next (runEdge .abort 0 s)

/-- NOP: no effect beyond the transmitter's step (41_transmitter.md R157). -/
def execNop (s : State) : Host.Outcome State Fault Refusal :=
  .next (runEdge .nothing 0 s)

/-- P, the playback sequence of a transmit command with FB at its accepting edge (41_transmitter.md R152); empty for every
other command. -/
def playback (fb : Signal) : Instr → List Bool
  | .txOnce _ => levels fb
  | .txTimes n => (List.replicate n.toNat (levels fb)).flatten
  | .txRepeat n => levels fb ++ (List.replicate n.toNat (levels rs)).flatten
  | .nop _ | .encStd _ | .encExt _ | .encRaw _ | .encRep _ | .abort _ => []

end Sys2Proof.Machine
end

