-- ==== Sys2Proof/Machine/Dispatch.lean ====
section
/-! DEFINITION. One arm per command: the meaning it calls. -/

namespace Sys2Proof.Machine

/-- The edge at which a command is written to CMD (30_encoding.md R85; notes/assumptions/10.md). COUNT reaches only the
commands that read it (R83). -/
def exec (i : Instr) (s : State) : Host.Outcome State Fault Refusal :=
  match i with
  | .nop _ => Sys2Proof.Machine.execNop s
  | .encStd _ => Sys2Proof.Machine.execEncStd s
  | .encExt _ => Sys2Proof.Machine.execEncExt s
  | .encRaw _ => Sys2Proof.Machine.execEncRaw s
  | .encRep _ => Sys2Proof.Machine.execEncRep s
  | .txOnce _ => Sys2Proof.Machine.execTxOnce s
  | .txTimes n => Sys2Proof.Machine.execTxTimes n s
  | .txRepeat n => Sys2Proof.Machine.execTxRepeat n s
  | .abort _ => Sys2Proof.Machine.execAbort s

end Sys2Proof.Machine
end

