-- ==== Sys2Proof/Machine/Port.lean ====
section
/-! DEFINITION. The register port and one event of the environment: what an edge, a fall of reset and a stopped clock do
(20_memory.md R60 to R66, 30_encoding.md R84, R85, 60_exceptions.md R219, 70_reset_and_hazards.md R230, R231). -/

namespace Sys2Proof.Machine

/-- A write of w to CMD: the command it decodes to runs, and any other word raises ILLEGAL and does nothing else
(30_encoding.md R84, R85; 60_exceptions.md R201). -/
def issue (w : Word) (s : State) : Host.Outcome State Fault Refusal :=
  match decode w with
  | .ok i => exec i s
  | .error _ => .next (runEdge (.raise .illegal) 0 s)

/-- RegWrite(off, w) at an edge (20_memory.md R61): CMD, DATA and ERR take writes, every other offset ignores them
(R64). -/
def writeReg (addr : Offset) (w : Word) (s : State) : Host.Outcome State Fault Refusal :=
  match wordIndex addr with
  | 0 => issue w s
  | 1 => .next (runEdge (.writeData w) 0 s)
  | 3 => .next (runEdge (.clearErr (w.extractLsb' 0 5)) 0 s)
  | _ => .next (runEdge .nothing 0 s)

/-- One rising edge of `clk` with these input levels. `rst_n` = 0 holds everything at reset, whatever the other ports show
(70_reset_and_hazards.md R230, 60_exceptions.md R209); else one access at most (20_memory.md R60), a read showing the
state before the edge (R62). -/
def clockEdge (p : Pins) (s : State) : Host.Outcome State Fault Refusal :=
  let s1 := { s with tbFault := p.tbFault }
  if p.rstN = false then .next (holdReset s1)
  else
    match p.we, p.re with
    | true, true => .refused .hostProtocolViolation
    | true, false => writeReg p.addr p.wdata s1
    | false, true => .next (runEdge .nothing (readReg s1 p.addr) s1)
    | false, false => .next (runEdge .nothing 0 s1)

/-- An edge at which the host and the environment do nothing (notes/assumptions/2.md). -/
def quietPins : Pins := { rstN := true, addr := 0, wdata := 0, we := false, re := false, tbFault := false }

/-- An edge with RegWrite(off, w) (00_scope.md R9). -/
def writePins (off : Offset) (w : Word) (tbFault : Bool) : Pins :=
  { rstN := true, addr := off, wdata := w, we := true, re := false, tbFault := tbFault }

/-- An edge with RegRead(off) (00_scope.md R9). -/
def readPins (off : Offset) (tbFault : Bool) : Pins :=
  { rstN := true, addr := off, wdata := 0, we := false, re := true, tbFault := tbFault }

/-- An edge with `rst_n` = 0. -/
def resetPins : Pins := { quietPins with rstN := false }

/-- One event of the environment. `poll` reads STATUS and stays at the head while the read shows BUSY = 1
(30_encoding.md R92). With the clock stopped there is no edge: the event stays at the head and the whole state stands still,
a stuck run (60_exceptions.md R219; notes/assumptions/8.md). -/
def takeEvent (s : State) : Host.Outcome State Fault Refusal :=
  match s.inputs with
  | [] => clockEdge quietPins s
  | .edge p :: rest => clockEdge p { s with inputs := rest }
  | .poll :: rest =>
    if (statusWord s).getLsbD 0 then clockEdge (readPins (regOffset .status) false) s
    else clockEdge (readPins (regOffset .status) false) { s with inputs := rest }
  | .resetFalls :: rest => .next (holdReset { s with inputs := rest })
  | .clockStops :: _ => .next s

/-- The state with a CMD write of w queued for the very next edge, before everything queued already. The time-base level
of that edge is the one the state holds, so nothing else differs (notes/assumptions/11.md). -/
def queueCommand (w : Word) (s : State) : State :=
  { s with inputs := .edge (writePins (regOffset .cmd) w s.tbFault) :: s.inputs }

end Sys2Proof.Machine
end

