-- ==== Sys2Proof/Machine/Step.lean ====
section
/-! DEFINITION. One step of the machine: one event of the environment. -/

namespace Sys2Proof.Machine

/-- One step: the next event, by `takeEvent`. -/
def step (s : State) : Host.Outcome State Fault Refusal := takeEvent s

/-- `s` with the command word stored where the next step takes its command: as the host's CMD write of the very next edge
(20_memory.md R66: a command is a CMD write and exists only at its edge; notes/assumptions/11.md). -/
def State.withFetchWord (s : State) (nbits w : Nat) : State := queueCommand (tableWord nbits w) s

end Sys2Proof.Machine
end

