-- ==== Sys2Proof/Machine/Assembly.lean ====
section
/-! DEFINITION. The host's assembly lines and pseudo-instructions as what the port sees (30_encoding.md R90 to R92). -/

namespace Sys2Proof.Machine

/-- The command of an operand-less command line, COUNT 0 (30_encoding.md R90). -/
def cmdInstr : CmdName → Instr
  | .nop => .nop 0
  | .encStd => .encStd 0
  | .encExt => .encExt 0
  | .encRaw => .encRaw 0
  | .encRep => .encRep 0
  | .txOnce => .txOnce 0
  | .abort => .abort 0

/-- The text of an operand-less command line (30_encoding.md R90). -/
def cmdText : CmdName → String
  | .nop => "nop"
  | .encStd => "enc.std"
  | .encExt => "enc.ext"
  | .encRaw => "enc.raw"
  | .encRep => "enc.rep"
  | .txOnce => "tx.once"
  | .abort => "abort"

/-- A line as the event the port sees: one access, or the polling loop (30_encoding.md R90 to R92). The environment gives
the level of `tb_fault` at the line's edge (93_implementation_defined.md I4). That `rst_n` is 1 there is a DESIGN CHOICE
(notes/assumptions/19.md; for `wait`, whose edges have `tb_fault` = 0 too, notes/assumptions/14.md). -/
def lineEvent (tbFault : Bool) : Line → Event
  | .cmd c => .edge (writePins (regOffset .cmd) (encode (cmdInstr c)) tbFault)
  | .txTimes n => .edge (writePins (regOffset .cmd) (encode (.txTimes (BitVec.ofNat 16 n))) tbFault)
  | .txRepeat n => .edge (writePins (regOffset .cmd) (encode (.txRepeat (BitVec.ofNat 16 n))) tbFault)
  | .wr off v => .edge (writePins (BitVec.ofNat 8 off) (BitVec.ofNat 32 v) tbFault)
  | .rd off => .edge (readPins (BitVec.ofNat 8 off) tbFault)
  | .wait => .poll

/-- `ld.data V` (30_encoding.md R92). -/
def ldDataLine (v : Nat) : Line := .wr 0x04 v

/-- The expansions of the pseudo-instructions (30_encoding.md R92). -/
def expand : Pseudo → List Line
  | .ldData v => [ldDataLine v]
  | .wait => [.wait]
  | .clrErr => [.wr 0x0C 0x1F]
  | .sendStd a c => [ldDataLine (c <<< 8 ||| a), .cmd .encStd, .cmd .txOnce, .wait]
  | .sendExt a c => [ldDataLine (c <<< 16 ||| a), .cmd .encExt, .cmd .txOnce, .wait]
  | .sendRaw v => [ldDataLine v, .cmd .encRaw, .cmd .txOnce, .wait]
  | .holdStd a c n => [ldDataLine (c <<< 8 ||| a), .cmd .encStd, .txRepeat n, .wait]
  | .holdExt a c n => [ldDataLine (c <<< 16 ||| a), .cmd .encExt, .txRepeat n, .wait]
  | .resend n => [.txTimes n, .wait]

end Sys2Proof.Machine
end

