-- ==== Sys2Proof/Safety.lean ====
section
/-! DEFINITION. The terms claims are stated in: valid Signals, the invariants of a safe run, what the environment does at
the next step, and an undisturbed environment. -/

namespace Sys2Proof.Machine

/-- The valid Signals: what the four constructions give, for all operand values (40_signal_construction.md R103). -/
def ValidSignal (sig : Signal) : Prop :=
  (∃ a c : Byte, sig = build 8 (bitsStd a c)) ∨
  (∃ (a : BitVec 16) (c : Byte), sig = build 8 (bitsExt a c)) ∨
  (∃ v : Word, sig = build 8 (bitsRaw v)) ∨
  sig = build 4 []

/-- The invariants of 10_state.md R45, numbered as there, with R4's TICK_CYCLES ≥ 1. -/
structure Inv (s : State) : Prop where
  /-- 1. BUSY = 0 ⇔ PHASE = IDLE. -/
  busy_iff : s.busy = false ↔ s.phase = .idle
  /-- 2. BUSY = 0 ⇒ TCNT = 0, IDX = 0, REM = 0 and ABORT_REQ = 0. -/
  idle_clear : s.busy = false → s.tcnt = 0 ∧ s.idx = 0 ∧ s.rem = 0 ∧ s.abortReq = false
  /-- 3. BUSY = 1 ⇒ FBV = 1. -/
  busy_fbv : s.busy = true → s.fbv = true
  /-- 4. PHASE = REPEAT ⇒ MODE = REPEAT. -/
  phase_mode : s.phase = .repeatCode → s.mode = .repeatCode
  /-- 5. IDX ≤ 191. -/
  idx_le : s.idx ≤ 191
  /-- 5. TCNT ≤ TICK_CYCLES − 1. -/
  tcnt_le : s.tcnt ≤ s.tickCycles - 1
  /-- 6. FBV = 1 ⇒ FB is a valid Signal. -/
  fb_valid : s.fbv = true → ValidSignal s.fb
  /-- TICK_CYCLES ≥ 1 (00_scope.md R4). -/
  tick_pos : 1 ≤ s.tickCycles

/-- `ir_out` = 0 whenever BUSY = 0 (41_transmitter.md R162). -/
def OutLowWhenIdle (s : State) : Prop := s.busy = false → s.out = false

/-- The deliveries so far and those still to come are together at most 192 × 65536 (10_state.md R38). -/
def SinkBounded (s : State) : Prop :=
  s.sinkcnt.toNat + (if s.busy then 192 * s.rem.toNat + (192 - s.idx.toNat) else 0) ≤ 192 * 65536

/-- DONE = 0 during a playback (10_state.md R37). -/
def DoneClearWhileBusy (s : State) : Prop := s.busy = true → s.done = false

/-- The four encoder commands. -/
def isEncoder : Instr → Bool
  | .encStd _ | .encExt _ | .encRaw _ | .encRep _ => true
  | .nop _ | .txOnce _ | .txTimes _ | .txRepeat _ | .abort _ => false

/-- The three transmit commands. -/
def isTransmit : Instr → Bool
  | .txOnce _ | .txTimes _ | .txRepeat _ => true
  | .nop _ | .encStd _ | .encExt _ | .encRaw _ | .encRep _ | .abort _ => false

/-- The state the edge with levels `p` computes from: `tb_fault` sampled, the event taken off the list. -/
def sampled (s : State) (p : Pins) (rest : List Event) : State := { s with tbFault := p.tbFault, inputs := rest }

/-- The next step is an edge with levels `p`, `rst_n` = 1, and the write request alone. -/
def writesNext (s : State) (p : Pins) (rest : List Event) : Prop :=
  s.inputs = .edge p :: rest ∧ p.rstN = true ∧ p.we = true ∧ p.re = false

/-- The next step is an edge at which the host writes command `i` to CMD. -/
def issuesNext (s : State) (i : Instr) : Prop :=
  ∃ p rest, writesNext s p rest ∧ wordIndex p.addr = 0 ∧ decode p.wdata = .ok i

/-- The next step puts the block into reset: `rst_n` falls, or is 0 at an edge. -/
def resetsNext (s : State) : Prop :=
  (∃ rest, s.inputs = .resetFalls :: rest) ∨ ∃ p rest, s.inputs = .edge p :: rest ∧ p.rstN = false

/-- An event that neither resets the block, nor stops its clock, nor reports a time-base fault, nor breaks the port's
protocol. -/
def undisturbed : Event → Bool
  | .edge p => p.rstN && !p.tbFault && !(p.we && p.re)
  | .poll => true
  | .resetFalls | .clockStops => false

/-- An edge at which the host writes ABORT to CMD. -/
def writesAbort : Event → Bool
  | .edge p => p.we && wordIndex p.addr == 0 && opField p.wdata == 8 && rsvField p.wdata == 0
  | .poll | .resetFalls | .clockStops => false

/-- An event under which a playback runs its course: undisturbed, and no ABORT. Every other host access is allowed. -/
def calm (e : Event) : Bool := undisturbed e && !writesAbort e

/-- The ERR bits the transmitter raises at an edge (41_transmitter.md R147, R148): TIMEBASE before ABORTED
(60_exceptions.md R209). -/
def txRaised (s : State) : BitVec 5 :=
  if s.busy = false then 0
  else if s.tbFault then 0b10000
  else if s.tcnt = s.tickCycles - 1 ∧ s.abortReq = true then 0b01000
  else 0

/-- The ERR bit a host access raises at issue (60_exceptions.md R208). -/
def hostRaised : HostAction → BitVec 5
  | .raise e => e.bit
  | .nothing | .writeData _ | .clearErr _ | .frame _ | .start _ _ _ | .abort => 0

/-- What the transmitter's step at an edge ends (41_transmitter.md R156): a completion, an abort or a fault. -/
def playbackEnds (s : State) : Prop :=
  s.tbFault = true ∨ (s.tcnt = s.tickCycles - 1 ∧ (s.abortReq = true ∨ (¬ s.idx < 191 ∧ s.rem = 0)))

/-- The picture of a playback `p` of `out0` before it, `j` edges after the accepting one: `j / TICK_CYCLES` levels
delivered, the last of them on `ir_out`, a strobe at the delivery edges and only there, BUSY until the last delivery and
DONE from it (41_transmitter.md R145, R149, R160, R161). -/
structure PlaybackPicture (p : List Bool) (out0 : Bool) (j : Nat) (u : State) : Prop where
  sinkcnt : u.sinkcnt.toNat = j / u.tickCycles
  stb : u.stb = decide (0 < j ∧ j % u.tickCycles = 0)
  out : u.out = if j / u.tickCycles = 0 then out0 else p.getD (j / u.tickCycles - 1) false
  busy : u.busy = decide (j < p.length * u.tickCycles)
  done : u.done = decide (j = p.length * u.tickCycles)

end Sys2Proof.Machine
end

