-- ==== Sys2Proof/Certificates/Slice0/Obligations.lean ====
section
/-! DEFINITION. The statements about the machine, for the provers. Each docstring says which sentence of spec/ it
formalises, or what it rests on. -/

open Sys2Proof Sys2Proof.Machine

/-! ## Encoding -/

/-- Every well-formed command is what its word decodes to, for every value of COUNT (30_encoding.md R80, R81). -/
def Obligations.DecodeOfEncode : Prop := ∀ i : Instr, i.wf = true → decode (encode i) = .ok i

/-- No two words decode to one term of Instr: a word that decodes is the word its term encodes to, COUNT included. That
every term carries COUNT, so that words which differ only in an ignored COUNT stay apart, is the model's choice (DESIGN
CHOICE, notes/assumptions/16.md): for the spec they are one command (30_encoding.md R87). The format is R80's. -/
def Obligations.EncodeOfDecode : Prop := ∀ (w : Word) (i : Instr), decode w = .ok i → encode i = w

/-- A word decodes to a command exactly when OP ≤ 8 and RSV = 0; a CMD write of any other word raises ILLEGAL and does
nothing else, whether or not BUSY is set: the edge is the transmitter's own step with ERR bit 0 set (30_encoding.md
R84). -/
def Obligations.IllegalWordsOnlySetIllegal : Prop :=
  (∀ w : Word, (∃ i, decode w = .ok i) ↔ (w.extractLsb' 0 4).toNat ≤ 8 ∧ w.extractLsb' 4 12 = 0) ∧
  ∀ (s : State) (p : Pins) (rest : List Event), writesNext s p rest → wordIndex p.addr = 0 →
    ¬ ((p.wdata.extractLsb' 0 4).toNat ≤ 8 ∧ p.wdata.extractLsb' 4 12 = 0) →
    step s = .next { txStep (sampled s p rest) with
      err := (txStep (sampled s p rest)).err ||| 0b00001, rdata := 0 }

/-- The canonical words of the opcode table and the assembly syntax decode to their commands, and the reserved words of
95_test_vectors.md V20 to none (a sanity statement; 30_encoding.md R81, R90). -/
def Obligations.SpecWordsDecode : Prop :=
  decode 0x00000000 = .ok (.nop 0) ∧ decode 0x00000001 = .ok (.encStd 0) ∧ decode 0x00000002 = .ok (.encExt 0) ∧
  decode 0x00000003 = .ok (.encRaw 0) ∧ decode 0x00000004 = .ok (.encRep 0) ∧ decode 0x00000005 = .ok (.txOnce 0) ∧
  decode 0x00030006 = .ok (.txTimes 3) ∧ decode 0x00020007 = .ok (.txRepeat 2) ∧ decode 0x00000008 = .ok (.abort 0) ∧
  decode 0xABCD0000 = .ok (.nop 0xABCD) ∧ decode 0x00000009 = .error .reservedOpcode ∧
  decode 0x0000000F = .error .reservedOpcode ∧ decode 0x00010015 = .error .reservedBits

/-! ## The step and the port -/

/-- A step at an edge where the host writes a legal word to CMD runs exactly the command the word decodes to, on the state
with `tb_fault` sampled and the event taken off the list; and the word that withFetchWord queues runs on the state
itself (30_encoding.md R85; notes/assumptions/10.md, 11.md). -/
def Obligations.StepRunsDecodedCommand : Prop :=
  (∀ (s : State) (p : Pins) (rest : List Event) (i : Instr), writesNext s p rest → wordIndex p.addr = 0 →
    decode p.wdata = .ok i → step s = exec i (sampled s p rest)) ∧
  ∀ (s : State) (i : Instr), step (s.withFetchWord 32 (encode i).toNat) = exec i s

/-- Write effects by offset: CMD issues the command; DATA <- w; ERR loses the bits that are 1 in w[4:0], then this edge's
new bits are ORed in; every other offset takes no effect. The transmitter's own step is beside it (20_memory.md R61). -/
def Obligations.WriteEffectsByOffset : Prop :=
  ∀ (s : State) (p : Pins) (rest : List Event), writesNext s p rest →
    let e := sampled s p rest
    (wordIndex p.addr = 0 → step s = issue p.wdata e) ∧
    (wordIndex p.addr = 1 → step s = .next { txStep e with data := p.wdata, rdata := 0 }) ∧
    (wordIndex p.addr = 3 → step s = .next { txStep e with
      err := (s.err &&& ~~~ p.wdata.extractLsb' 0 5) ||| txRaised e, rdata := 0 }) ∧
    (wordIndex p.addr ≠ 0 → wordIndex p.addr ≠ 1 → wordIndex p.addr ≠ 3 →
      step s = .next { txStep e with rdata := 0 })

/-- A read shows the register view of the state before the edge and changes nothing else: with `re` = 1 the edge is the
transmitter's step with `rdata` at the view; with `re` = 0, or `rst_n` = 0, `rdata` is 0. CMD reads 0, DATA reads DATA,
reserved offsets read 0 (20_memory.md R62). -/
def Obligations.ReadsShowTheStateBefore : Prop :=
  (∀ (s : State) (p : Pins) (rest : List Event), s.inputs = .edge p :: rest → p.rstN = true → p.we = false →
    p.re = true → step s = .next { txStep (sampled s p rest) with rdata := readReg s p.addr }) ∧
  (∀ (s t : State) (p : Pins) (rest : List Event), s.inputs = .edge p :: rest → p.re = false ∨ p.rstN = false →
    step s = .next t → t.rdata = 0) ∧
  (∀ (s : State) (a : Offset), wordIndex a = 0 → readReg s a = 0) ∧
  (∀ (s : State) (a : Offset), wordIndex a = 1 → readReg s a = s.data) ∧
  (∀ (s : State) (a : Offset), 14 ≤ wordIndex a → readReg s a = 0)

/-- The fields of STATUS, bit by bit, and a write to STATUS is ignored (10_state.md R40). -/
def Obligations.StatusFields : Prop :=
  (∀ s : State,
    (readReg s 0x08).getLsbD 0 = s.busy ∧ (readReg s 0x08).getLsbD 1 = s.done ∧ (readReg s 0x08).getLsbD 2 = s.fbv ∧
    (readReg s 0x08).getLsbD 3 = s.out ∧ (readReg s 0x08).getLsbD 4 = s.abortReq ∧
    (readReg s 0x08).getLsbD 5 = false ∧ (readReg s 0x08).extractLsb' 6 2 = s.phase.code ∧
    (readReg s 0x08).extractLsb' 8 8 = s.idx ∧ (readReg s 0x08).extractLsb' 16 16 = s.rem) ∧
  ∀ (s : State) (w : Word), writeReg 0x08 w s = .next { txStep s with rdata := 0 }

/-- The error register and the counter and configuration views, and which of them ignore writes; TICKCFG and TCNT show
their numbers whenever these fit 32 bits (10_state.md R41, R42; that TICK_CYCLES fits is DEDUCED,
notes/assumptions/4.md). -/
def Obligations.ErrorAndCounterViews : Prop :=
  (∀ s : State, readReg s 0x0C = s.err.setWidth 32 ∧ readReg s 0x10 = s.sinkcnt ∧
    readReg s 0x1C = s.mode.code.setWidth 32 ∧
    (s.tickCycles < 2 ^ 32 → (readReg s 0x14).toNat = s.tickCycles) ∧
    (s.tcnt < 2 ^ 32 → (readReg s 0x18).toNat = s.tcnt)) ∧
  ∀ (s : State) (a : Offset) (w : Word), 4 ≤ wordIndex a → wordIndex a ≤ 7 →
    writeReg a w s = .next { txStep s with rdata := 0 }

/-- FRAMEj, at offset 0x20 + 4·j, reads as the value with bit b equal to FB[32·j + b]; so FB[i] is bit (i mod 32) of
FRAME(i div 32), and for every valid Signal the low 16 bits of FRAME0 are 0xFFFF (42_diagnostics.md R190). -/
def Obligations.FrameWordLayout : Prop :=
  (∀ (s : State) (j b : Nat), j < 6 → b < 32 →
    (readReg s (BitVec.ofNat 8 (0x20 + 4 * j))).getLsbD b = level s.fb (32 * j + b)) ∧
  (∀ (s : State) (i : Nat), i < 192 →
    level s.fb i = (readReg s (BitVec.ofNat 8 (0x20 + 4 * (i / 32)))).getLsbD (i % 32)) ∧
  ∀ s : State, ValidSignal s.fb → (readReg s 0x20).extractLsb' 0 16 = 0xFFFF

/-- Reserved offsets read as zero and ignore writes, and so do writes to the read-only registers; none of them raises an
error: the edge is the transmitter's own step (20_memory.md R64). -/
def Obligations.ReservedAndReadOnlyOffsets : Prop :=
  (∀ (s : State) (a : Offset), 0x38 ≤ a.toNat → readReg s a = 0) ∧
  (∀ (s : State) (p : Pins), p.rstN = true → p.we = false → p.re = true → 0x38 ≤ p.addr.toNat →
    clockEdge p s = .next { txStep { s with tbFault := p.tbFault } with rdata := 0 }) ∧
  ∀ (s : State) (a : Offset) (w : Word), wordIndex a = 2 ∨ 4 ≤ wordIndex a →
    writeReg a w s = .next { txStep s with rdata := 0 }

/-- `addr[1:0]` is ignored: an access at an offset reaches the word at `addr & 0xFC` (20_memory.md R65). -/
def Obligations.LowAddressBitsIgnored : Prop :=
  ∀ (s : State) (a : Offset) (w : Word), readReg s a = readReg s (a &&& 0xFC) ∧ writeReg a w s = writeReg (a &&& 0xFC) w s

/-- `we` = `re` = 1 at an edge with `rst_n` = 1 is refused by name; with `rst_n` = 0 the accesses have no effect
(20_memory.md section 1; that reset comes first is DEDUCED, notes/assumptions/9.md). -/
def Obligations.ProtocolViolationRefused : Prop :=
  ∀ (s : State) (p : Pins) (rest : List Event), s.inputs = .edge p :: rest → p.we = true → p.re = true →
    (p.rstN = true → step s = .refused .hostProtocolViolation) ∧
    (p.rstN = false → step s = .next (holdReset (sampled s p rest)))

/-- Every step goes on, unless the host breaks the port's protocol: no command, no error, no word and no stop of the clock
ever ends a run with a fault (60_exceptions.md R211; 20_memory.md R60). Three of its cases rest on the model's choices:
that a step with the clock stopped answers the state unchanged (DESIGN CHOICE, notes/assumptions/8.md), that an empty list
of events is a quiet edge (DESIGN CHOICE, notes/assumptions/2.md), and that `rst_n` = 0 comes before the violation (DEDUCED,
notes/assumptions/9.md). -/
def Obligations.StepsGoOn : Prop :=
  ∀ s : State, (∃ t, step s = .next t) ↔
    ¬ ∃ p rest, s.inputs = .edge p :: rest ∧ p.rstN = true ∧ p.we = true ∧ p.re = true

/-- With the clock stopped the run is stuck, and no fault: the block neither advances nor detects the stop, so however
often the model is stepped the whole state stands still, a playback with BUSY = 1 among them (60_exceptions.md R219; that
the model writes "no step" as a step that changes nothing is a DESIGN CHOICE, notes/assumptions/8.md). -/
def Obligations.StoppedClockIsStuck : Prop :=
  ∀ (s : State) (rest : List Event) (k : Nat), s.inputs = .clockStops :: rest → core.run k s = .next s

/-- `wait` reads STATUS edge after edge, and ends after the first read that shows BUSY = 0 (30_encoding.md R92;
notes/assumptions/14.md). -/
def Obligations.PollEndsWithBusy : Prop :=
  ∀ (s : State) (rest : List Event), s.inputs = .poll :: rest →
    ∃ t, step s = .next t ∧ t.rdata = readReg s 0x08 ∧
      (s.busy = true → t.inputs = s.inputs) ∧ (s.busy = false → t.inputs = rest)

/-! ## Reset -/

/-- While `rst_n` = 0, at an edge or from its fall between edges, every state element holds its reset value, whatever the
host and `tb_fault` do; only the model's own fields go on (70_reset_and_hazards.md R230, 10_state.md R44). -/
def Obligations.ResetValues : Prop :=
  ∀ s : State, resetsNext s →
    ∃ t, step s = .next t ∧ t.data = 0 ∧ (∀ i < 192, level t.fb i = false) ∧ t.fbv = false ∧ t.mode = .once ∧
      t.phase = .idle ∧ t.idx = 0 ∧ t.rem = 0 ∧ t.tcnt = 0 ∧ t.abortReq = false ∧ t.out = false ∧ t.stb = false ∧
      t.busy = false ∧ t.done = false ∧ t.sinkcnt = 0 ∧ t.err = 0 ∧ t.rdata = 0 ∧ t.tickCycles = s.tickCycles

/-- The reset state meets every invariant below, for every TICK_CYCLES ≥ 1 (10_state.md R45: "the reset state meets
them"). -/
def Obligations.ResetMeetsInvariants : Prop :=
  ∀ tc : Nat, 1 ≤ tc → Inv (State.afterReset tc) ∧ OutLowWhenIdle (State.afterReset tc) ∧
    SinkBounded (State.afterReset tc) ∧ DoneClearWhileBusy (State.afterReset tc)

/-! ## Invariants of every step -/

/-- Every step keeps the six invariants of 10_state.md R45, from every state that meets them. -/
def Obligations.StepKeepsInvariants : Prop := ∀ s t : State, Inv s → step s = .next t → Inv t

/-- Every step keeps `ir_out` = 0 whenever BUSY = 0 (41_transmitter.md R162). -/
def Obligations.StepKeepsIdleOutputLow : Prop :=
  ∀ s t : State, Inv s → OutLowWhenIdle s → step s = .next t → OutLowWhenIdle t

/-- SINKCNT never wraps: the deliveries so far and to come stay within 192 × 65536 (10_state.md R38). -/
def Obligations.StepKeepsSinkBound : Prop :=
  ∀ s t : State, Inv s → SinkBounded s → step s = .next t → SinkBounded t

/-- DONE is 0 during every playback (10_state.md R37). -/
def Obligations.StepKeepsDoneClear : Prop :=
  ∀ s t : State, DoneClearWhileBusy s → step s = .next t → DoneClearWhileBusy t

/-! ## Rules about the whole machine -/

/-- Only an encoder command changes FB, and only while BUSY = 0, apart from reset; so the Signal under playback does not
change (10_state.md section 3, 20_memory.md R74). -/
def Obligations.OnlyEncodersWriteFrame : Prop :=
  ∀ s t : State, step s = .next t → t.fb ≠ s.fb → ¬ resetsNext s →
    s.busy = false ∧ t.fbv = true ∧ ∃ i, issuesNext s i ∧ isEncoder i = true

/-- FBV: reset value 0; every accepted encoder command sets it; only reset clears it; a transmit command issued while
FBV = 0 is refused with NOFRAME; it is STATUS.FBV (10_state.md R26). -/
def Obligations.FrameValidFlag : Prop :=
  (∀ tc, (State.afterReset tc).fbv = false) ∧
  (∀ (s : State) (i : Instr), s.busy = false → isEncoder i = true → ∃ t, exec i s = .next t ∧ t.fbv = true) ∧
  (∀ s t : State, step s = .next t → s.fbv = true → t.fbv = false → resetsNext s) ∧
  (∀ (s : State) (i : Instr), s.busy = false → s.fbv = false → isTransmit i = true →
    exec i s = .next { s with err := s.err ||| 0b00100, stb := false, rdata := 0 }) ∧
  ∀ s : State, (readReg s 0x08).getLsbD 2 = s.fbv

/-- MODE changes only at the edge of an accepted transmit command (one issued with BUSY = 0, FBV = 1 and `tb_fault` = 0 at
the edge), which makes it that command's mode, or at reset. `t.tbFault` is the level sampled at the edge (10_state.md
section 3, 30_encoding.md R85). -/
def Obligations.OnlyTransmitWritesMode : Prop :=
  ∀ s t : State, step s = .next t → t.mode ≠ s.mode → ¬ resetsNext s →
    s.busy = false ∧ s.fbv = true ∧ t.tbFault = false ∧ ∃ i, issuesNext s i ∧
      ((∃ c, i = .txOnce c ∧ t.mode = .once) ∨ (∃ n, i = .txTimes n ∧ t.mode = .times) ∨
        ∃ n, i = .txRepeat n ∧ t.mode = .repeatCode)

/-- DATA changes only by a write to its offset, which makes it the word written, or at reset (70_reset_and_hazards.md
R242, 10_state.md R23). -/
def Obligations.OnlyDataWritesChangeData : Prop :=
  ∀ s t : State, step s = .next t → t.data ≠ s.data → ¬ resetsNext s →
    ∃ p rest, writesNext s p rest ∧ wordIndex p.addr = 1 ∧ t.data = p.wdata

/-- An ERR bit that is set stays set until the host writes 1 to it or the block is reset (60_exceptions.md R212). -/
def Obligations.ErrorBitsAreSticky : Prop :=
  ∀ (s t : State) (k : Nat), step s = .next t → s.err.getLsbD k = true → t.err.getLsbD k = false → ¬ resetsNext s →
    ∃ p rest, writesNext s p rest ∧ wordIndex p.addr = 3 ∧ p.wdata.getLsbD k = true

/-- TICK_CYCLES is a parameter: no step changes it (00_scope.md R4; a rule of the model's own field,
notes/assumptions/3.md). -/
def Obligations.TickCyclesNeverChanges : Prop := ∀ s t : State, step s = .next t → t.tickCycles = s.tickCycles

/-- A playback starts only by an accepted transmit command, at an edge with FBV = 1 and no time-base fault; and once one
runs, BUSY falls only at a delivery of the last level, an abort taken at a tick boundary, a time-base fault at this very
edge, or reset. `t.tbFault` is the level of `tb_fault` sampled at the edge (10_state.md R36, 41_transmitter.md R158). -/
def Obligations.WhatStartsAndEndsBusy : Prop :=
  ∀ s t : State, step s = .next t → ¬ resetsNext s →
    (s.busy = false → t.busy = true →
      s.fbv = true ∧ t.tbFault = false ∧ ∃ i, issuesNext s i ∧ isTransmit i = true) ∧
    (s.busy = true → t.busy = false →
      (t.tbFault = false ∧ s.tcnt = s.tickCycles - 1 ∧ s.abortReq = false ∧ ¬ s.idx < 191 ∧ s.rem = 0 ∧
        t.stb = true ∧ t.done = true ∧ t.sinkcnt = s.sinkcnt + 1) ∨
      (t.stb = false ∧ t.out = false ∧ t.done = s.done ∧ t.sinkcnt = s.sinkcnt ∧
        (t.tbFault = false ∧ s.tcnt = s.tickCycles - 1 ∧ s.abortReq = true ∧ t.err.getLsbD 3 = true ∨
          t.tbFault = true ∧ t.err.getLsbD 4 = true)))

/-- While BUSY = 0 an edge without a host write changes nothing but the strobe and the read data (60_exceptions.md
R218). -/
def Obligations.IdleEdgesChangeNothing : Prop :=
  ∀ (s : State) (p : Pins) (rest : List Event), s.inputs = .edge p :: rest → p.rstN = true → p.we = false →
    s.busy = false → ∃ rd, step s = .next { sampled s p rest with stb := false, rdata := rd }

/-! ## The encoder commands -/

/-- ENC_STD completes at its edge: FB <- build(8, bits_std(DATA[7:0], DATA[15:8])), FBV <- 1, and nothing else but what
an idle edge does (40_signal_construction.md section 2, R110, R100). -/
def Obligations.EncStdResult : Prop :=
  ∀ (s : State) (c : Count), s.busy = false →
    exec (.encStd c) s = .next { s with
      fb := build 8 (bitsStd (s.data.extractLsb' 0 8) (s.data.extractLsb' 8 8)), fbv := true, stb := false, rdata := 0 }

/-- ENC_EXT completes at its edge: FB <- build(8, bits_ext(DATA[15:0], DATA[23:16])), FBV <- 1
(40_signal_construction.md section 2, R111, R100). -/
def Obligations.EncExtResult : Prop :=
  ∀ (s : State) (c : Count), s.busy = false →
    exec (.encExt c) s = .next { s with
      fb := build 8 (bitsExt (s.data.extractLsb' 0 16) (s.data.extractLsb' 16 8)), fbv := true, stb := false, rdata := 0 }

/-- ENC_RAW completes at its edge: FB <- build(8, bits_raw(DATA)), FBV <- 1 (40_signal_construction.md section 2, R112,
R100). -/
def Obligations.EncRawResult : Prop :=
  ∀ (s : State) (c : Count), s.busy = false →
    exec (.encRaw c) s = .next { s with fb := build 8 (bitsRaw s.data), fbv := true, stb := false, rdata := 0 }

/-- ENC_REP completes at its edge: FB takes the repeat code, which does not depend on any state, FBV <- 1
(40_signal_construction.md section 2, R113, R100; 10_state.md R27). -/
def Obligations.EncRepResult : Prop :=
  ∀ (s : State) (c : Count), s.busy = false →
    exec (.encRep c) s = .next { s with fb := rs, fbv := true, stb := false, rdata := 0 }

/-- RS = build(4, []): RS[i] = 1 if i < 16 or i = 20, and 0 otherwise; a constant of the model, so nothing changes it
(10_state.md R27). -/
def Obligations.RepeatCodeLevels : Prop := rs = build 4 [] ∧ ∀ i < 192, level rs i = decide (i < 16 ∨ i = 20)

/-- The golden strings of the source, V1 and V2 of 95_test_vectors.md, as FRAME words, with V4 for the repeat code and V6,
the negative vector (a sanity statement; 40_signal_construction.md section 2). -/
def Obligations.GoldenFrames : Prop :=
  (List.range 6).map (frameWord (build 8 (bitsStd 0 1))) =
    [0x5500FFFF, 0x11111155, 0x15555111, 0x01111111, 0, 0] ∧
  (List.range 6).map (frameWord (build 8 (bitsExt 0xEF00 3))) =
    [0x5500FFFF, 0x45111155, 0x55554444, 0x00444444, 0, 0] ∧
  (List.range 6).map (frameWord (build 4 [])) = [0x0010FFFF, 0, 0, 0, 0, 0] ∧
  (List.range 6).map (frameWord (build 8 (bitsRaw 0x00FF41BE))) =
    [0x5500FFFF, 0x11111155, 0x11554511, 0x01444445, 0, 0]

/-- The content lengths of the four encoders, and truncation never happens (40_signal_construction.md R120, an inference
the spec marks as its own: "Every content length is ≤ 153 < 192"). -/
def Obligations.ContentLengths : Prop :=
  (∀ a c : Byte, (content 8 (bitsStd a c)).length = 121) ∧
  (∀ (a : BitVec 16) (c : Byte), (content 8 (bitsExt a c)).length = 105 + 2 * popcount a ∧
    (content 8 (bitsExt a c)).length ≤ 137) ∧
  (∀ v : Word, (content 8 (bitsRaw v)).length = 89 + 2 * popcount v ∧ (content 8 (bitsRaw v)).length ≤ 153) ∧
  (content 4 []).length = 21

/-- Where the marks stand: the leader in 0..15, the mark of bit j at m_j, the trailing mark at m_32, and every other level
a space, for every list of 32 payload bits (40_signal_construction.md R121, an inference the spec marks as its own). -/
def Obligations.MarkPositions : Prop :=
  ∀ bits : List Bool, bits.length = 32 →
    let m := fun j => 24 + 2 * j + 2 * (bits.take j).countP id
    ∀ i < 192, level (build 8 bits) i = true ↔ i < 16 ∨ ∃ j ≤ 32, i = m j

/-- Every frame has exactly 49 marks and the repeat code 17; every valid Signal begins with 16 marks and ends with a
space (40_signal_construction.md R122, an inference the spec marks as its own). -/
def Obligations.MarkCounts : Prop :=
  (∀ bits : List Bool, bits.length = 32 → popcount (build 8 bits) = 49) ∧ popcount rs = 17 ∧
  ∀ sig : Signal, ValidSignal sig → level sig 191 = false ∧ ∀ i < 16, level sig i = true

/-- The three forms agree on equivalent operands: ENC_STD(a, c) = ENC_RAW(rawOfStd(a, c)) = ENC_EXT(a | ~a << 8, c) and
ENC_EXT(A, c) = ENC_RAW(rawOfExt(A, c)), and rawOfStd is the reversal of the four payload bytes
(40_signal_construction.md R123, an inference the spec marks as its own). -/
def Obligations.EncoderEquivalence : Prop :=
  (∀ a c : Byte, build 8 (bitsStd a c) = build 8 (bitsRaw (rawOfStd a c)) ∧
    build 8 (bitsStd a c) = build 8 (bitsExt (~~~a ++ a) c) ∧
    rawOfStd a c = BitVec.reverse (~~~c ++ c ++ ~~~a ++ a)) ∧
  ∀ (a : BitVec 16) (c : Byte), build 8 (bitsExt a c) = build 8 (bitsRaw (rawOfExt a c))

/-- No two raw values share a Signal, no two operands of ENC_STD or of ENC_EXT do, and no frame is the repeat code
(40_signal_construction.md R125, an inference the spec marks as its own). -/
def Obligations.EncodersAreInjective : Prop :=
  (∀ xs ys : List Bool, xs.length = 32 → ys.length = 32 → build 8 xs = build 8 ys → xs = ys) ∧
  (∀ v w : Word, build 8 (bitsRaw v) = build 8 (bitsRaw w) → v = w) ∧
  (∀ a c a' c' : Byte, build 8 (bitsStd a c) = build 8 (bitsStd a' c') → a = a' ∧ c = c') ∧
  (∀ (a a' : BitVec 16) (c c' : Byte), build 8 (bitsExt a c) = build 8 (bitsExt a' c') → a = a' ∧ c = c') ∧
  ∀ bits : List Bool, bits.length = 32 → build 8 bits ≠ rs

/-- The canonical text of a Signal has 192 characters, '1' for mark and '0' for space in sequence order; and a host that
takes bit (i mod 32) of FRAME(i div 32) for each i gets that text (42_diagnostics.md R191). -/
def Obligations.RenderingFromFrameWords : Prop :=
  (∀ sig : Signal, (render sig).length = 192 ∧
    ∀ i < 192, (render sig)[i]? = some (if level sig i then '1' else '0')) ∧
  ∀ s : State, renderWords (fun j => readReg s (BitVec.ofNat 8 (0x20 + 4 * j))) = render s.fb

/-- An encoder command reads only its listed DATA fields: states that agree on them, and are both idle, get the same FB
(30_encoding.md R82: "Fields not listed are ignored"). -/
def Obligations.EncodersIgnoreOtherDataBits : Prop :=
  ∀ (s s' : State) (c : Count), s.busy = false → s'.busy = false →
    (s.data.extractLsb' 0 16 = s'.data.extractLsb' 0 16 →
      ∃ t t', exec (.encStd c) s = .next t ∧ exec (.encStd c) s' = .next t' ∧ t.fb = t'.fb) ∧
    (s.data.extractLsb' 0 24 = s'.data.extractLsb' 0 24 →
      ∃ t t', exec (.encExt c) s = .next t ∧ exec (.encExt c) s' = .next t' ∧ t.fb = t'.fb) ∧
    (s.data = s'.data → ∃ t t', exec (.encRaw c) s = .next t ∧ exec (.encRaw c) s' = .next t' ∧ t.fb = t'.fb) ∧
    ∃ t t', exec (.encRep c) s = .next t ∧ exec (.encRep c) s' = .next t' ∧ t.fb = t'.fb

/-! ## Issue-time errors -/

/-- A legal ENC_* or TX_* written while BUSY = 1 sets ERR.REJECT and changes nothing else: the edge is the transmitter's
own step (60_exceptions.md R202). -/
def Obligations.RejectedWhileBusy : Prop :=
  ∀ (s : State) (i : Instr), s.busy = true → isEncoder i = true ∨ isTransmit i = true →
    exec i s = .next { txStep s with err := (txStep s).err ||| 0b00010, rdata := 0 }

/-- TIMEBASE: at the edge that would accept a transmit command `tb_fault` = 1 sets ERR.TIMEBASE and starts nothing; at any
edge while BUSY = 1 it ends the playback with ERR.TIMEBASE set, whatever the host does; while BUSY = 0 with no transmit
command it has no effect (60_exceptions.md R205). -/
def Obligations.TimebaseFault : Prop :=
  (∀ (s : State) (i : Instr), isTransmit i = true → s.busy = false → s.fbv = true → s.tbFault = true →
    exec i s = .next { s with err := s.err ||| 0b10000, stb := false, rdata := 0 }) ∧
  (∀ (s t : State) (p : Pins) (rest : List Event), s.inputs = .edge p :: rest → p.rstN = true → p.tbFault = true →
    s.busy = true → step s = .next t →
    t.busy = false ∧ t.phase = .idle ∧ t.out = false ∧ t.stb = false ∧ t.err.getLsbD 4 = true ∧ t.done = s.done ∧
      t.sinkcnt = s.sinkcnt) ∧
  ∀ (s t : State) (p : Pins) (rest : List Event), s.inputs = .edge { p with tbFault := false } :: rest →
    s.busy = false → (∀ i, isTransmit i = true → ¬ issuesNext s i) → step s = .next t →
    step { s with inputs := .edge { p with tbFault := true } :: rest } = .next { t with tbFault := true }

/-! ## The transmit commands, ABORT and NOP -/

/-- TX_ONCE starts a playback of one block: start(ONCE, 1, 0) (41_transmitter.md section 6, R153). -/
def Obligations.TxOnceStarts : Prop :=
  ∀ (s : State) (c : Count), s.busy = false → s.fbv = true → s.tbFault = false →
    exec (.txOnce c) s = .next { s with
      mode := .once, sinkcnt := 0, done := false, abortReq := false, busy := true, phase := .frame, idx := 0, rem := 0,
      tcnt := 0, stb := false, rdata := 0 }

/-- TX_TIMES n starts a playback of n blocks, and for n = 0 is the empty playback: DONE at once, BUSY never set, OUT
unchanged (41_transmitter.md section 6, R154). -/
def Obligations.TxTimesStarts : Prop :=
  ∀ (s : State) (n : Count), s.busy = false → s.fbv = true → s.tbFault = false →
    (n ≠ 0 → exec (.txTimes n) s = .next { s with
      mode := .times, sinkcnt := 0, done := false, abortReq := false, busy := true, phase := .frame, idx := 0,
      rem := n - 1, tcnt := 0, stb := false, rdata := 0 }) ∧
    (n = 0 → exec (.txTimes n) s = .next { s with
      mode := .times, sinkcnt := 0, done := true, abortReq := false, stb := false, rdata := 0 })

/-- TX_REPEAT n starts a playback of 1 + n blocks: start(REPEAT, 1 + n, n) (41_transmitter.md section 6, R155). -/
def Obligations.TxRepeatStarts : Prop :=
  ∀ (s : State) (n : Count), s.busy = false → s.fbv = true → s.tbFault = false →
    exec (.txRepeat n) s = .next { s with
      mode := .repeatCode, sinkcnt := 0, done := false, abortReq := false, busy := true, phase := .frame, idx := 0,
      rem := n, tcnt := 0, stb := false, rdata := 0 }

/-- ABORT sets ABORT_REQ if BUSY = 1 and the transmitter's step at the edge does not end the playback; else it has no
effect; it never raises an error (41_transmitter.md section 6, R156). -/
def Obligations.AbortRequests : Prop :=
  ∀ (s : State) (c : Count),
    (s.busy = true → ¬ playbackEnds s → exec (.abort c) s = .next { txStep s with abortReq := true, rdata := 0 }) ∧
    (s.busy = true → playbackEnds s → exec (.abort c) s = .next { txStep s with rdata := 0 }) ∧
    (s.busy = false → exec (.abort c) s = .next { s with stb := false, rdata := 0 })

/-- NOP leaves every state element as the transmitter's step alone leaves it (41_transmitter.md section 6, R157). -/
def Obligations.NopIsTheTransmitterAlone : Prop :=
  ∀ (s : State) (c : Count), exec (.nop c) s = .next { txStep s with rdata := 0 } ∧
    (s.busy = false → exec (.nop c) s = .next { s with stb := false, rdata := 0 })

/-- No other opcode than TX_TIMES and TX_REPEAT reads COUNT (30_encoding.md R83). -/
def Obligations.CountIgnoredElsewhere : Prop :=
  ∀ (s : State) (c c' : Count), exec (.nop c) s = exec (.nop c') s ∧ exec (.encStd c) s = exec (.encStd c') s ∧
    exec (.encExt c) s = exec (.encExt c') s ∧ exec (.encRaw c) s = exec (.encRaw c') s ∧
    exec (.encRep c) s = exec (.encRep c') s ∧ exec (.txOnce c) s = exec (.txOnce c') s ∧
    exec (.abort c) s = exec (.abort c') s

/-! ## The transmitter -/

/-- At every edge at which BUSY = 1 and there is no time-base fault the tick counter steps: at TICK_CYCLES − 1 it goes to 0
and a tick boundary occurs (a level is delivered or a pending abort is taken), else it counts one and nothing else
happens (41_transmitter.md R142). -/
def Obligations.TickCounterCounts : Prop :=
  ∀ s : State, s.busy = true → s.tbFault = false →
    (s.tcnt = s.tickCycles - 1 → (txStep s).tcnt = 0 ∧ ((txStep s).stb = true ∨ (txStep s).busy = false)) ∧
    (s.tcnt ≠ s.tickCycles - 1 → txStep s = { s with tcnt := s.tcnt + 1, stb := false })

/-- The tick step: the level delivered comes from FB or RS, OUT, STB and SINKCNT take it, and IDX, REM, PHASE, BUSY and
DONE advance; all else stays (41_transmitter.md R146, R149). -/
def Obligations.TickDeliversAndAdvances : Prop :=
  ∀ s : State, s.busy = true → s.tbFault = false → s.abortReq = false → s.tcnt = s.tickCycles - 1 →
    let lvl := if s.phase = .frame then level s.fb s.idx.toNat else level rs s.idx.toNat
    (s.idx < 191 → txStep s = { s with
      out := lvl, stb := true, sinkcnt := s.sinkcnt + 1, tcnt := 0, idx := s.idx + 1 }) ∧
    (¬ s.idx < 191 → s.rem = 0 → txStep s = { s with
      out := lvl, stb := true, sinkcnt := s.sinkcnt + 1, tcnt := 0, idx := 0, busy := false, phase := .idle,
      done := true }) ∧
    (¬ s.idx < 191 → s.rem ≠ 0 → txStep s = { s with
      out := lvl, stb := true, sinkcnt := s.sinkcnt + 1, tcnt := 0, idx := 0, rem := s.rem - 1,
      phase := if s.mode = .repeatCode then .repeatCode else .frame })

/-- A pending abort at a tick boundary: nothing is delivered, OUT <- 0, the transmitter goes idle, ERR.ABORTED is raised,
and DONE, SINKCNT and all else stay (41_transmitter.md R147). -/
def Obligations.AbortTakenAtTick : Prop :=
  ∀ s : State, s.busy = true → s.tbFault = false → s.abortReq = true → s.tcnt = s.tickCycles - 1 →
    txStep s = { s with
      out := false, busy := false, phase := .idle, idx := 0, rem := 0, abortReq := false, tcnt := 0, stb := false,
      err := s.err ||| 0b01000 }

/-- A time-base fault while BUSY = 1 ends the playback at once, whatever TCNT and ABORT_REQ hold: nothing is delivered,
OUT <- 0, ERR.TIMEBASE is raised, and DONE and all else stay (41_transmitter.md R148). -/
def Obligations.FaultEndsPlayback : Prop :=
  ∀ s : State, s.busy = true → s.tbFault = true →
    txStep s = { s with
      out := false, busy := false, phase := .idle, idx := 0, rem := 0, tcnt := 0, abortReq := false, stb := false,
      err := s.err ||| 0b10000 }

/-- Same-edge combination: ERR is (ERR & ~clear) | host_raised | tx_raised; while BUSY = 1 no access writes anything but
DATA, ERR, ABORT_REQ and the read data, all else is the transmitter's; ABORT_REQ is set by an ABORT only when the
transmitter's step does not end the playback, else the transmitter's value stands; while BUSY = 0 the transmitter writes
STB alone, and the host writes more than DATA, ERR and the read data by an encode or a start only; and DATA is the host's
alone (70_reset_and_hazards.md R244). -/
def Obligations.SameEdgeCombination : Prop :=
  (∀ (a : HostAction) (rd : Word) (s : State),
    (runEdge a rd s).err = ((s.err &&& ~~~ clearMask a) ||| hostRaised a) ||| txRaised s) ∧
  (∀ (s t : State) (p : Pins) (rest : List Event), s.inputs = .edge p :: rest → p.rstN = true → s.busy = true →
    step s = .next t →
    t = { txStep (sampled s p rest) with data := t.data, err := t.err, abortReq := t.abortReq, rdata := t.rdata } ∧
      ((∃ c, issuesNext s (.abort c)) → ¬ playbackEnds (sampled s p rest) → t.abortReq = true) ∧
      ((¬ ∃ c, issuesNext s (.abort c)) ∨ playbackEnds (sampled s p rest) →
        t.abortReq = (txStep (sampled s p rest)).abortReq)) ∧
  (∀ s : State, s.busy = false → txStep s = { s with stb := false }) ∧ (∀ s : State, (txStep s).data = s.data) ∧
  ∀ (a : HostAction) (rd : Word) (s : State), s.busy = false → (∀ sig, a ≠ .frame sig) →
    (∀ mode blocks rem0, a ≠ .start mode blocks rem0) →
    runEdge a rd s = { s with
      data := (runEdge a rd s).data, err := (runEdge a rd s).err, stb := false, rdata := rd }

/-- The headline of the transmitter: after an accepted transmit command with playback P, whatever the host does short of
an ABORT, level P[k] is delivered at exactly edge (k + 1)·TICK_CYCLES, none at any other edge, SINKCNT counts them, BUSY
lasts to the last of them and DONE comes with it; for every TICK_CYCLES, every count and every frame (41_transmitter.md
R145, R152, R160, R161: inferences the spec marks as its own, from R142 to R149). -/
def Obligations.PlaybackDeliversItsSequence : Prop :=
  ∀ (s : State) (i : Instr), isTransmit i = true → s.busy = false → s.fbv = true → s.tbFault = false →
    1 ≤ s.tickCycles → playback s.fb i ≠ [] →
    ∀ j ≤ (playback s.fb i).length * s.tickCycles, (∀ e ∈ s.inputs.take j, calm e = true) →
      ∃ t u, exec i s = .next t ∧ core.run j t = .next u ∧ u.tickCycles = s.tickCycles ∧
        PlaybackPicture (playback s.fb i) s.out j u

/-- The lengths of the three playbacks, 192, 192·n and 192·(1 + n) levels, and the levels: FB in every block of TX_ONCE and
TX_TIMES and in the first of TX_REPEAT, RS in the others (41_transmitter.md R152, R160). -/
def Obligations.PlaybackLengths : Prop :=
  ∀ (fb : Signal) (c n : Count), (playback fb (.txOnce c)).length = 192 ∧
    (playback fb (.txTimes n)).length = 192 * n.toNat ∧ (playback fb (.txRepeat n)).length = 192 * (1 + n.toNat) ∧
    ∀ k, (k < 192 → (playback fb (.txOnce c)).getD k false = level fb k) ∧
      (k < 192 * n.toNat → (playback fb (.txTimes n)).getD k false = level fb (k % 192)) ∧
      (k < 192 → (playback fb (.txRepeat n)).getD k false = level fb k) ∧
      (192 ≤ k → k < 192 * (1 + n.toNat) → (playback fb (.txRepeat n)).getD k false = level rs (k % 192))

/-- An accepted ABORT ends the playback at the next tick boundary, 1 to TICK_CYCLES edges later, and not before:
nothing more is delivered, `ir_out` goes to 0 and ERR.ABORTED is set (41_transmitter.md R156, 70_reset_and_hazards.md
R243). -/
def Obligations.AbortLatency : Prop :=
  ∀ (s : State) (c : Count), s.busy = true → s.tcnt ≤ s.tickCycles - 1 → 1 ≤ s.tickCycles → ¬ playbackEnds s →
    ∃ t d, exec (.abort c) s = .next t ∧ d = s.tickCycles - t.tcnt ∧ 1 ≤ d ∧ d ≤ s.tickCycles ∧
      ((∀ e ∈ s.inputs.take d, undisturbed e = true) →
        (∀ j < d, ∃ u, core.run j t = .next u ∧ u.busy = true ∧ u.sinkcnt = t.sinkcnt) ∧
        ∃ u, core.run d t = .next u ∧ u.busy = false ∧ u.out = false ∧ u.stb = false ∧ u.tcnt = 0 ∧
          u.err.getLsbD 3 = true ∧ u.done = t.done ∧ u.sinkcnt = t.sinkcnt)

/-! ## Host lines -/

/-- Pseudo-instructions issue the commands they name with the operands as written: each expands as the table of R92 says,
into well-formed lines when its operands are in range; the DATA word of a send or hold form gives the encoder its operands;
each command line has the word of R90's table; and each line with an access of its own reaches the port as that access,
whatever `tb_fault` is at its edge: a command line issues its command with that COUNT, `wr` writes that value at that
offset, `rd` reads that offset (30_encoding.md R90, R91, R92). The model's choices in it: `rst_n` = 1 at a line's edge
(DESIGN CHOICE, notes/assumptions/19.md); `wait` is one poll event, at whose edges `tb_fault` = 0 whatever the argument
(DESIGN CHOICE, notes/assumptions/14.md); and the offset of a well-formed `wr` or `rd` line is a multiple of 4 (DEDUCED,
notes/assumptions/17.md). -/
def Obligations.HostLinesReachTheirCommands : Prop :=
  (∀ v a c n : Nat,
    expand (.ldData v) = [.wr 0x04 v] ∧ expand .wait = [.wait] ∧ expand .clrErr = [.wr 0x0C 0x1F] ∧
    expand (.sendStd a c) = [.wr 0x04 (c <<< 8 ||| a), .cmd .encStd, .cmd .txOnce, .wait] ∧
    expand (.sendExt a c) = [.wr 0x04 (c <<< 16 ||| a), .cmd .encExt, .cmd .txOnce, .wait] ∧
    expand (.sendRaw v) = [.wr 0x04 v, .cmd .encRaw, .cmd .txOnce, .wait] ∧
    expand (.holdStd a c n) = [.wr 0x04 (c <<< 8 ||| a), .cmd .encStd, .txRepeat n, .wait] ∧
    expand (.holdExt a c n) = [.wr 0x04 (c <<< 16 ||| a), .cmd .encExt, .txRepeat n, .wait] ∧
    expand (.resend n) = [.txTimes n, .wait]) ∧
  (encode (cmdInstr .nop) = 0x00000000 ∧ encode (cmdInstr .encStd) = 0x00000001 ∧
    encode (cmdInstr .encExt) = 0x00000002 ∧ encode (cmdInstr .encRaw) = 0x00000003 ∧
    encode (cmdInstr .encRep) = 0x00000004 ∧ encode (cmdInstr .txOnce) = 0x00000005 ∧
    encode (cmdInstr .abort) = 0x00000008) ∧
  (∀ p : Pseudo, p.wf = true → ∀ l ∈ expand p, l.wf = true) ∧
  (∀ a c : Nat, a < 256 → c < 256 → let w : Word := BitVec.ofNat 32 (c <<< 8 ||| a)
    (stdAddress w).toNat = a ∧ (stdCommand w).toNat = c) ∧
  (∀ a c : Nat, a < 65536 → c < 256 → let w : Word := BitVec.ofNat 32 (c <<< 16 ||| a)
    (extAddress w).toNat = a ∧ (extCommand w).toNat = c) ∧
  ∀ (s : State) (rest : List Event) (f : Bool),
    (∀ n, n < 65536 →
      (s.inputs = lineEvent f (.txTimes n) :: rest → ∃ k, issuesNext s (.txTimes k) ∧ k.toNat = n) ∧
      (s.inputs = lineEvent f (.txRepeat n) :: rest → ∃ k, issuesNext s (.txRepeat k) ∧ k.toNat = n)) ∧
    (∀ c, s.inputs = lineEvent f (.cmd c) :: rest → issuesNext s (cmdInstr c)) ∧
    (∀ off v, (Line.wr off v).wf = true → s.inputs = lineEvent f (.wr off v) :: rest →
      ∃ p, writesNext s p rest ∧ p.addr.toNat = off ∧ p.wdata.toNat = v ∧ p.tbFault = f) ∧
    (∀ off, (Line.rd off).wf = true → s.inputs = lineEvent f (.rd off) :: rest →
      ∃ p, s.inputs = .edge p :: rest ∧ p.rstN = true ∧ p.we = false ∧ p.re = true ∧ p.addr.toNat = off ∧
        p.tbFault = f) ∧
    (s.inputs = lineEvent f .wait :: rest → s.inputs = .poll :: rest)
end

