-- ==== Sys2Proof/Laws/State.lean ====
section
/-! SUPPORT. One lemma per field per named update of State, and which fields the longer updates never write. -/

namespace Sys2Proof.Machine

@[simp] theorem raiseError_data (e : ErrorCode) (s : State) : (raiseError e s).data = s.data := rfl
@[simp] theorem raiseError_fb (e : ErrorCode) (s : State) : (raiseError e s).fb = s.fb := rfl
@[simp] theorem raiseError_fbv (e : ErrorCode) (s : State) : (raiseError e s).fbv = s.fbv := rfl
@[simp] theorem raiseError_mode (e : ErrorCode) (s : State) : (raiseError e s).mode = s.mode := rfl
@[simp] theorem raiseError_phase (e : ErrorCode) (s : State) : (raiseError e s).phase = s.phase := rfl
@[simp] theorem raiseError_idx (e : ErrorCode) (s : State) : (raiseError e s).idx = s.idx := rfl
@[simp] theorem raiseError_rem (e : ErrorCode) (s : State) : (raiseError e s).rem = s.rem := rfl
@[simp] theorem raiseError_tcnt (e : ErrorCode) (s : State) : (raiseError e s).tcnt = s.tcnt := rfl
@[simp] theorem raiseError_abortReq (e : ErrorCode) (s : State) : (raiseError e s).abortReq = s.abortReq := rfl
@[simp] theorem raiseError_out (e : ErrorCode) (s : State) : (raiseError e s).out = s.out := rfl
@[simp] theorem raiseError_stb (e : ErrorCode) (s : State) : (raiseError e s).stb = s.stb := rfl
@[simp] theorem raiseError_busy (e : ErrorCode) (s : State) : (raiseError e s).busy = s.busy := rfl
@[simp] theorem raiseError_done (e : ErrorCode) (s : State) : (raiseError e s).done = s.done := rfl
@[simp] theorem raiseError_sinkcnt (e : ErrorCode) (s : State) : (raiseError e s).sinkcnt = s.sinkcnt := rfl
@[simp] theorem raiseError_err (e : ErrorCode) (s : State) : (raiseError e s).err = s.err ||| e.bit := rfl
@[simp] theorem raiseError_rdata (e : ErrorCode) (s : State) : (raiseError e s).rdata = s.rdata := rfl
@[simp] theorem raiseError_tickCycles (e : ErrorCode) (s : State) : (raiseError e s).tickCycles = s.tickCycles := rfl
@[simp] theorem raiseError_tbFault (e : ErrorCode) (s : State) : (raiseError e s).tbFault = s.tbFault := rfl
@[simp] theorem raiseError_inputs (e : ErrorCode) (s : State) : (raiseError e s).inputs = s.inputs := rfl

@[simp] theorem clearErrors_data (m : BitVec 5) (s : State) : (clearErrors m s).data = s.data := rfl
@[simp] theorem clearErrors_fb (m : BitVec 5) (s : State) : (clearErrors m s).fb = s.fb := rfl
@[simp] theorem clearErrors_fbv (m : BitVec 5) (s : State) : (clearErrors m s).fbv = s.fbv := rfl
@[simp] theorem clearErrors_mode (m : BitVec 5) (s : State) : (clearErrors m s).mode = s.mode := rfl
@[simp] theorem clearErrors_phase (m : BitVec 5) (s : State) : (clearErrors m s).phase = s.phase := rfl
@[simp] theorem clearErrors_idx (m : BitVec 5) (s : State) : (clearErrors m s).idx = s.idx := rfl
@[simp] theorem clearErrors_rem (m : BitVec 5) (s : State) : (clearErrors m s).rem = s.rem := rfl
@[simp] theorem clearErrors_tcnt (m : BitVec 5) (s : State) : (clearErrors m s).tcnt = s.tcnt := rfl
@[simp] theorem clearErrors_abortReq (m : BitVec 5) (s : State) : (clearErrors m s).abortReq = s.abortReq := rfl
@[simp] theorem clearErrors_out (m : BitVec 5) (s : State) : (clearErrors m s).out = s.out := rfl
@[simp] theorem clearErrors_stb (m : BitVec 5) (s : State) : (clearErrors m s).stb = s.stb := rfl
@[simp] theorem clearErrors_busy (m : BitVec 5) (s : State) : (clearErrors m s).busy = s.busy := rfl
@[simp] theorem clearErrors_done (m : BitVec 5) (s : State) : (clearErrors m s).done = s.done := rfl
@[simp] theorem clearErrors_sinkcnt (m : BitVec 5) (s : State) : (clearErrors m s).sinkcnt = s.sinkcnt := rfl
@[simp] theorem clearErrors_err (m : BitVec 5) (s : State) : (clearErrors m s).err = s.err &&& ~~~m := rfl
@[simp] theorem clearErrors_rdata (m : BitVec 5) (s : State) : (clearErrors m s).rdata = s.rdata := rfl
@[simp] theorem clearErrors_tickCycles (m : BitVec 5) (s : State) : (clearErrors m s).tickCycles = s.tickCycles := rfl
@[simp] theorem clearErrors_tbFault (m : BitVec 5) (s : State) : (clearErrors m s).tbFault = s.tbFault := rfl
@[simp] theorem clearErrors_inputs (m : BitVec 5) (s : State) : (clearErrors m s).inputs = s.inputs := rfl

@[simp] theorem deliver_data (l : Bool) (s : State) : (deliver l s).data = s.data := rfl
@[simp] theorem deliver_fb (l : Bool) (s : State) : (deliver l s).fb = s.fb := rfl
@[simp] theorem deliver_fbv (l : Bool) (s : State) : (deliver l s).fbv = s.fbv := rfl
@[simp] theorem deliver_mode (l : Bool) (s : State) : (deliver l s).mode = s.mode := rfl
@[simp] theorem deliver_phase (l : Bool) (s : State) : (deliver l s).phase = s.phase := rfl
@[simp] theorem deliver_idx (l : Bool) (s : State) : (deliver l s).idx = s.idx := rfl
@[simp] theorem deliver_rem (l : Bool) (s : State) : (deliver l s).rem = s.rem := rfl
@[simp] theorem deliver_tcnt (l : Bool) (s : State) : (deliver l s).tcnt = s.tcnt := rfl
@[simp] theorem deliver_abortReq (l : Bool) (s : State) : (deliver l s).abortReq = s.abortReq := rfl
@[simp] theorem deliver_out (l : Bool) (s : State) : (deliver l s).out = l := rfl
@[simp] theorem deliver_stb (l : Bool) (s : State) : (deliver l s).stb = true := rfl
@[simp] theorem deliver_busy (l : Bool) (s : State) : (deliver l s).busy = s.busy := rfl
@[simp] theorem deliver_done (l : Bool) (s : State) : (deliver l s).done = s.done := rfl
@[simp] theorem deliver_sinkcnt (l : Bool) (s : State) : (deliver l s).sinkcnt = s.sinkcnt + 1 := rfl
@[simp] theorem deliver_err (l : Bool) (s : State) : (deliver l s).err = s.err := rfl
@[simp] theorem deliver_rdata (l : Bool) (s : State) : (deliver l s).rdata = s.rdata := rfl
@[simp] theorem deliver_tickCycles (l : Bool) (s : State) : (deliver l s).tickCycles = s.tickCycles := rfl
@[simp] theorem deliver_tbFault (l : Bool) (s : State) : (deliver l s).tbFault = s.tbFault := rfl
@[simp] theorem deliver_inputs (l : Bool) (s : State) : (deliver l s).inputs = s.inputs := rfl

@[simp] theorem stopPlayback_data (s : State) : (stopPlayback s).data = s.data := rfl
@[simp] theorem stopPlayback_fb (s : State) : (stopPlayback s).fb = s.fb := rfl
@[simp] theorem stopPlayback_fbv (s : State) : (stopPlayback s).fbv = s.fbv := rfl
@[simp] theorem stopPlayback_mode (s : State) : (stopPlayback s).mode = s.mode := rfl
@[simp] theorem stopPlayback_phase (s : State) : (stopPlayback s).phase = .idle := rfl
@[simp] theorem stopPlayback_idx (s : State) : (stopPlayback s).idx = 0 := rfl
@[simp] theorem stopPlayback_rem (s : State) : (stopPlayback s).rem = 0 := rfl
@[simp] theorem stopPlayback_tcnt (s : State) : (stopPlayback s).tcnt = s.tcnt := rfl
@[simp] theorem stopPlayback_abortReq (s : State) : (stopPlayback s).abortReq = false := rfl
@[simp] theorem stopPlayback_out (s : State) : (stopPlayback s).out = false := rfl
@[simp] theorem stopPlayback_stb (s : State) : (stopPlayback s).stb = s.stb := rfl
@[simp] theorem stopPlayback_busy (s : State) : (stopPlayback s).busy = false := rfl
@[simp] theorem stopPlayback_done (s : State) : (stopPlayback s).done = s.done := rfl
@[simp] theorem stopPlayback_sinkcnt (s : State) : (stopPlayback s).sinkcnt = s.sinkcnt := rfl
@[simp] theorem stopPlayback_err (s : State) : (stopPlayback s).err = s.err := rfl
@[simp] theorem stopPlayback_rdata (s : State) : (stopPlayback s).rdata = s.rdata := rfl
@[simp] theorem stopPlayback_tickCycles (s : State) : (stopPlayback s).tickCycles = s.tickCycles := rfl
@[simp] theorem stopPlayback_tbFault (s : State) : (stopPlayback s).tbFault = s.tbFault := rfl
@[simp] theorem stopPlayback_inputs (s : State) : (stopPlayback s).inputs = s.inputs := rfl

@[simp] theorem abortEnd_data (s : State) : (abortEnd s).data = s.data := rfl
@[simp] theorem abortEnd_fb (s : State) : (abortEnd s).fb = s.fb := rfl
@[simp] theorem abortEnd_fbv (s : State) : (abortEnd s).fbv = s.fbv := rfl
@[simp] theorem abortEnd_mode (s : State) : (abortEnd s).mode = s.mode := rfl
@[simp] theorem abortEnd_phase (s : State) : (abortEnd s).phase = .idle := rfl
@[simp] theorem abortEnd_idx (s : State) : (abortEnd s).idx = 0 := rfl
@[simp] theorem abortEnd_rem (s : State) : (abortEnd s).rem = 0 := rfl
@[simp] theorem abortEnd_tcnt (s : State) : (abortEnd s).tcnt = s.tcnt := rfl
@[simp] theorem abortEnd_abortReq (s : State) : (abortEnd s).abortReq = false := rfl
@[simp] theorem abortEnd_out (s : State) : (abortEnd s).out = false := rfl
@[simp] theorem abortEnd_stb (s : State) : (abortEnd s).stb = s.stb := rfl
@[simp] theorem abortEnd_busy (s : State) : (abortEnd s).busy = false := rfl
@[simp] theorem abortEnd_done (s : State) : (abortEnd s).done = s.done := rfl
@[simp] theorem abortEnd_sinkcnt (s : State) : (abortEnd s).sinkcnt = s.sinkcnt := rfl
@[simp] theorem abortEnd_err (s : State) : (abortEnd s).err = s.err ||| ErrorCode.aborted.bit := rfl
@[simp] theorem abortEnd_rdata (s : State) : (abortEnd s).rdata = s.rdata := rfl
@[simp] theorem abortEnd_tickCycles (s : State) : (abortEnd s).tickCycles = s.tickCycles := rfl
@[simp] theorem abortEnd_tbFault (s : State) : (abortEnd s).tbFault = s.tbFault := rfl
@[simp] theorem abortEnd_inputs (s : State) : (abortEnd s).inputs = s.inputs := rfl

@[simp] theorem faultEnd_data (s : State) : (faultEnd s).data = s.data := rfl
@[simp] theorem faultEnd_fb (s : State) : (faultEnd s).fb = s.fb := rfl
@[simp] theorem faultEnd_fbv (s : State) : (faultEnd s).fbv = s.fbv := rfl
@[simp] theorem faultEnd_mode (s : State) : (faultEnd s).mode = s.mode := rfl
@[simp] theorem faultEnd_phase (s : State) : (faultEnd s).phase = .idle := rfl
@[simp] theorem faultEnd_idx (s : State) : (faultEnd s).idx = 0 := rfl
@[simp] theorem faultEnd_rem (s : State) : (faultEnd s).rem = 0 := rfl
@[simp] theorem faultEnd_tcnt (s : State) : (faultEnd s).tcnt = 0 := rfl
@[simp] theorem faultEnd_abortReq (s : State) : (faultEnd s).abortReq = false := rfl
@[simp] theorem faultEnd_out (s : State) : (faultEnd s).out = false := rfl
@[simp] theorem faultEnd_stb (s : State) : (faultEnd s).stb = s.stb := rfl
@[simp] theorem faultEnd_busy (s : State) : (faultEnd s).busy = false := rfl
@[simp] theorem faultEnd_done (s : State) : (faultEnd s).done = s.done := rfl
@[simp] theorem faultEnd_sinkcnt (s : State) : (faultEnd s).sinkcnt = s.sinkcnt := rfl
@[simp] theorem faultEnd_err (s : State) : (faultEnd s).err = s.err ||| ErrorCode.timebase.bit := rfl
@[simp] theorem faultEnd_rdata (s : State) : (faultEnd s).rdata = s.rdata := rfl
@[simp] theorem faultEnd_tickCycles (s : State) : (faultEnd s).tickCycles = s.tickCycles := rfl
@[simp] theorem faultEnd_tbFault (s : State) : (faultEnd s).tbFault = s.tbFault := rfl
@[simp] theorem faultEnd_inputs (s : State) : (faultEnd s).inputs = s.inputs := rfl

@[simp] theorem holdReset_data (s : State) : (holdReset s).data = 0 := rfl
@[simp] theorem holdReset_fb (s : State) : (holdReset s).fb = 0 := rfl
@[simp] theorem holdReset_fbv (s : State) : (holdReset s).fbv = false := rfl
@[simp] theorem holdReset_mode (s : State) : (holdReset s).mode = .once := rfl
@[simp] theorem holdReset_phase (s : State) : (holdReset s).phase = .idle := rfl
@[simp] theorem holdReset_idx (s : State) : (holdReset s).idx = 0 := rfl
@[simp] theorem holdReset_rem (s : State) : (holdReset s).rem = 0 := rfl
@[simp] theorem holdReset_tcnt (s : State) : (holdReset s).tcnt = 0 := rfl
@[simp] theorem holdReset_abortReq (s : State) : (holdReset s).abortReq = false := rfl
@[simp] theorem holdReset_out (s : State) : (holdReset s).out = false := rfl
@[simp] theorem holdReset_stb (s : State) : (holdReset s).stb = false := rfl
@[simp] theorem holdReset_busy (s : State) : (holdReset s).busy = false := rfl
@[simp] theorem holdReset_done (s : State) : (holdReset s).done = false := rfl
@[simp] theorem holdReset_sinkcnt (s : State) : (holdReset s).sinkcnt = 0 := rfl
@[simp] theorem holdReset_err (s : State) : (holdReset s).err = 0 := rfl
@[simp] theorem holdReset_rdata (s : State) : (holdReset s).rdata = 0 := rfl
@[simp] theorem holdReset_tickCycles (s : State) : (holdReset s).tickCycles = s.tickCycles := rfl
@[simp] theorem holdReset_tbFault (s : State) : (holdReset s).tbFault = s.tbFault := rfl
@[simp] theorem holdReset_inputs (s : State) : (holdReset s).inputs = s.inputs := rfl

@[simp] theorem startPlayback_data (m : Mode) (b : Nat) (r : Count) (s : State) : (startPlayback m b r s).data = s.data := by
  unfold startPlayback; repeat' split
  all_goals rfl
@[simp] theorem startPlayback_fb (m : Mode) (b : Nat) (r : Count) (s : State) : (startPlayback m b r s).fb = s.fb := by
  unfold startPlayback; repeat' split
  all_goals rfl
@[simp] theorem startPlayback_fbv (m : Mode) (b : Nat) (r : Count) (s : State) : (startPlayback m b r s).fbv = s.fbv := by
  unfold startPlayback; repeat' split
  all_goals rfl
@[simp] theorem startPlayback_out (m : Mode) (b : Nat) (r : Count) (s : State) : (startPlayback m b r s).out = s.out := by
  unfold startPlayback; repeat' split
  all_goals rfl
@[simp] theorem startPlayback_stb (m : Mode) (b : Nat) (r : Count) (s : State) : (startPlayback m b r s).stb = s.stb := by
  unfold startPlayback; repeat' split
  all_goals rfl
@[simp] theorem startPlayback_err (m : Mode) (b : Nat) (r : Count) (s : State) : (startPlayback m b r s).err = s.err := by
  unfold startPlayback; repeat' split
  all_goals rfl
@[simp] theorem startPlayback_rdata (m : Mode) (b : Nat) (r : Count) (s : State) : (startPlayback m b r s).rdata = s.rdata := by
  unfold startPlayback; repeat' split
  all_goals rfl
@[simp] theorem startPlayback_tickCycles (m : Mode) (b : Nat) (r : Count) (s : State) : (startPlayback m b r s).tickCycles = s.tickCycles := by
  unfold startPlayback; repeat' split
  all_goals rfl
@[simp] theorem startPlayback_tbFault (m : Mode) (b : Nat) (r : Count) (s : State) : (startPlayback m b r s).tbFault = s.tbFault := by
  unfold startPlayback; repeat' split
  all_goals rfl
@[simp] theorem startPlayback_inputs (m : Mode) (b : Nat) (r : Count) (s : State) : (startPlayback m b r s).inputs = s.inputs := by
  unfold startPlayback; repeat' split
  all_goals rfl

@[simp] theorem requestAbort_data (s0 s : State) : (requestAbort s0 s).data = s.data := by
  unfold requestAbort; repeat' split
  all_goals rfl
@[simp] theorem requestAbort_fb (s0 s : State) : (requestAbort s0 s).fb = s.fb := by
  unfold requestAbort; repeat' split
  all_goals rfl
@[simp] theorem requestAbort_fbv (s0 s : State) : (requestAbort s0 s).fbv = s.fbv := by
  unfold requestAbort; repeat' split
  all_goals rfl
@[simp] theorem requestAbort_mode (s0 s : State) : (requestAbort s0 s).mode = s.mode := by
  unfold requestAbort; repeat' split
  all_goals rfl
@[simp] theorem requestAbort_phase (s0 s : State) : (requestAbort s0 s).phase = s.phase := by
  unfold requestAbort; repeat' split
  all_goals rfl
@[simp] theorem requestAbort_idx (s0 s : State) : (requestAbort s0 s).idx = s.idx := by
  unfold requestAbort; repeat' split
  all_goals rfl
@[simp] theorem requestAbort_rem (s0 s : State) : (requestAbort s0 s).rem = s.rem := by
  unfold requestAbort; repeat' split
  all_goals rfl
@[simp] theorem requestAbort_tcnt (s0 s : State) : (requestAbort s0 s).tcnt = s.tcnt := by
  unfold requestAbort; repeat' split
  all_goals rfl
@[simp] theorem requestAbort_out (s0 s : State) : (requestAbort s0 s).out = s.out := by
  unfold requestAbort; repeat' split
  all_goals rfl
@[simp] theorem requestAbort_stb (s0 s : State) : (requestAbort s0 s).stb = s.stb := by
  unfold requestAbort; repeat' split
  all_goals rfl
@[simp] theorem requestAbort_busy (s0 s : State) : (requestAbort s0 s).busy = s.busy := by
  unfold requestAbort; repeat' split
  all_goals rfl
@[simp] theorem requestAbort_done (s0 s : State) : (requestAbort s0 s).done = s.done := by
  unfold requestAbort; repeat' split
  all_goals rfl
@[simp] theorem requestAbort_sinkcnt (s0 s : State) : (requestAbort s0 s).sinkcnt = s.sinkcnt := by
  unfold requestAbort; repeat' split
  all_goals rfl
@[simp] theorem requestAbort_err (s0 s : State) : (requestAbort s0 s).err = s.err := by
  unfold requestAbort; repeat' split
  all_goals rfl
@[simp] theorem requestAbort_rdata (s0 s : State) : (requestAbort s0 s).rdata = s.rdata := by
  unfold requestAbort; repeat' split
  all_goals rfl
@[simp] theorem requestAbort_tickCycles (s0 s : State) : (requestAbort s0 s).tickCycles = s.tickCycles := by
  unfold requestAbort; repeat' split
  all_goals rfl
@[simp] theorem requestAbort_tbFault (s0 s : State) : (requestAbort s0 s).tbFault = s.tbFault := by
  unfold requestAbort; repeat' split
  all_goals rfl
@[simp] theorem requestAbort_inputs (s0 s : State) : (requestAbort s0 s).inputs = s.inputs := by
  unfold requestAbort; repeat' split
  all_goals rfl

@[simp] theorem tickStep_data (s : State) : (tickStep s).data = s.data := by
  unfold tickStep; repeat' split
  all_goals rfl
@[simp] theorem tickStep_fb (s : State) : (tickStep s).fb = s.fb := by
  unfold tickStep; repeat' split
  all_goals rfl
@[simp] theorem tickStep_fbv (s : State) : (tickStep s).fbv = s.fbv := by
  unfold tickStep; repeat' split
  all_goals rfl
@[simp] theorem tickStep_mode (s : State) : (tickStep s).mode = s.mode := by
  unfold tickStep; repeat' split
  all_goals rfl
@[simp] theorem tickStep_tcnt (s : State) : (tickStep s).tcnt = s.tcnt := by
  unfold tickStep; repeat' split
  all_goals rfl
@[simp] theorem tickStep_abortReq (s : State) : (tickStep s).abortReq = s.abortReq := by
  unfold tickStep; repeat' split
  all_goals rfl
@[simp] theorem tickStep_err (s : State) : (tickStep s).err = s.err := by
  unfold tickStep; repeat' split
  all_goals rfl
@[simp] theorem tickStep_rdata (s : State) : (tickStep s).rdata = s.rdata := by
  unfold tickStep; repeat' split
  all_goals rfl
@[simp] theorem tickStep_tickCycles (s : State) : (tickStep s).tickCycles = s.tickCycles := by
  unfold tickStep; repeat' split
  all_goals rfl
@[simp] theorem tickStep_tbFault (s : State) : (tickStep s).tbFault = s.tbFault := by
  unfold tickStep; repeat' split
  all_goals rfl
@[simp] theorem tickStep_inputs (s : State) : (tickStep s).inputs = s.inputs := by
  unfold tickStep; repeat' split
  all_goals rfl

@[simp] theorem txStep_data (s : State) : (txStep s).data = s.data := by
  unfold txStep; dsimp only; repeat' split
  all_goals simp
@[simp] theorem txStep_fb (s : State) : (txStep s).fb = s.fb := by
  unfold txStep; dsimp only; repeat' split
  all_goals simp
@[simp] theorem txStep_fbv (s : State) : (txStep s).fbv = s.fbv := by
  unfold txStep; dsimp only; repeat' split
  all_goals simp
@[simp] theorem txStep_mode (s : State) : (txStep s).mode = s.mode := by
  unfold txStep; dsimp only; repeat' split
  all_goals simp
@[simp] theorem txStep_rdata (s : State) : (txStep s).rdata = s.rdata := by
  unfold txStep; dsimp only; repeat' split
  all_goals simp
@[simp] theorem txStep_tickCycles (s : State) : (txStep s).tickCycles = s.tickCycles := by
  unfold txStep; dsimp only; repeat' split
  all_goals simp
@[simp] theorem txStep_tbFault (s : State) : (txStep s).tbFault = s.tbFault := by
  unfold txStep; dsimp only; repeat' split
  all_goals simp
@[simp] theorem txStep_inputs (s : State) : (txStep s).inputs = s.inputs := by
  unfold txStep; dsimp only; repeat' split
  all_goals simp

end Sys2Proof.Machine
end

