-- ==== Sys2Proof/Laws/Decode.lean ====
section
/-! SUPPORT. The fields of a command word. -/

namespace Sys2Proof

/-- The bits of a command word: OP, then RSV = 0, then COUNT (30_encoding.md R80). -/
theorem getLsbD_cmdWord (c : Count) (op : BitVec 4) (i : Nat) :
    (cmdWord c op).getLsbD i = if i < 4 then op.getLsbD i else if i < 16 then false else c.getLsbD (i - 16) := by
  have h1 : (cmdWord c op).getLsbD i = if i < 4 then op.getLsbD i else (c ++ 0#12).getLsbD (i - 4) :=
    BitVec.getLsbD_append (x := c ++ 0#12) (y := op) (i := i)
  rw [h1, BitVec.getLsbD_append]
  by_cases h : i < 4
  · simp [h]
  · by_cases h' : i < 16
    · have : i - 4 < 12 := by omega
      simp [h, h', this]
    · have h2 : ¬ i - 4 < 12 := by omega
      have h3 : i - 4 - 12 = i - 16 := by omega
      simp [h, h', h2, h3]

theorem opField_cmdWord (c : Count) (op : BitVec 4) : opField (cmdWord c op) = op := by
  refine BitVec.eq_of_getLsbD_eq fun i hi => ?_
  rw [opField, BitVec.getLsbD_extractLsb', getLsbD_cmdWord]
  simp [hi]

theorem rsvField_cmdWord (c : Count) (op : BitVec 4) : rsvField (cmdWord c op) = 0 := by
  refine BitVec.eq_of_getLsbD_eq fun i hi => ?_
  have h1 : ¬ 4 + i < 4 := by omega
  have h2 : 4 + i < 16 := by omega
  rw [rsvField, BitVec.getLsbD_extractLsb', getLsbD_cmdWord, if_neg h1, if_pos h2]
  simp

theorem countField_cmdWord (c : Count) (op : BitVec 4) : countField (cmdWord c op) = c := by
  refine BitVec.eq_of_getLsbD_eq fun i hi => ?_
  have h1 : ¬ 16 + i < 4 := by omega
  have h2 : ¬ 16 + i < 16 := by omega
  have h3 : 16 + i - 16 = i := by omega
  rw [countField, BitVec.getLsbD_extractLsb', getLsbD_cmdWord, if_neg h1, if_neg h2, h3]
  simp [hi]

/-- A word whose RSV field is 0 is made of its COUNT and OP. -/
theorem cmdWord_of_fields (w : Word) (h : rsvField w = 0) : cmdWord (countField w) (opField w) = w := by
  refine BitVec.eq_of_getLsbD_eq fun i hi => ?_
  rw [getLsbD_cmdWord]
  split
  · next h1 => simp [opField, h1]
  · split
    · next h1 h2 =>
      have hb : (rsvField w).getLsbD (i - 4) = false := by simp [h]
      have h3 : 4 + (i - 4) = i := by omega
      have h4 : i - 4 < 12 := by omega
      rw [rsvField, BitVec.getLsbD_extractLsb', h3] at hb
      simpa [h4] using hb.symm
    · next h1 h2 =>
      have h3 : 16 + (i - 16) = i := by omega
      have h4 : i - 16 < 16 := by omega
      simp [countField, h3, h4]

/-- The word the opcode table's numbering gives for a 32-bit value is that value. -/
theorem tableWord_toNat (w : Word) : tableWord 32 w.toNat = w := by
  have h : w.toNat % 2 ^ 32 = w.toNat := Nat.mod_eq_of_lt w.isLt
  simp only [tableWord, h, BitVec.ofNat_toNat, BitVec.setWidth_eq]

end Sys2Proof
end

