-- ==== Sys2Proof/Laws/Signals.lean ====
section
/-! SUPPORT. The levels of a built Signal, its words, and the lengths of payloads. -/

namespace Sys2Proof.Machine

theorem length_lsbf (x : Byte) : (lsbf x).length = 8 := by simp [lsbf]

theorem length_bitsStd (a c : Byte) : (bitsStd a c).length = 32 := by simp [bitsStd, length_lsbf]

theorem length_bitsExt (a : BitVec 16) (c : Byte) : (bitsExt a c).length = 32 := by simp [bitsExt, length_lsbf]

theorem length_bitsRaw (v : Word) : (bitsRaw v).length = 32 := by simp [bitsRaw]

theorem length_padTo (k : Nat) (xs : List Bool) : (padTo k xs).length = k := by simp [padTo]

/-- Padding fills with spaces and drops the excess (00_scope.md R8). -/
theorem getD_padTo {k i : Nat} (xs : List Bool) (h : i < k) : (padTo k xs).getD i false = xs.getD i false := by
  simp only [padTo, List.getD_eq_getElem?_getD, List.getElem?_take, h, if_true, List.getElem?_append]
  split
  · rfl
  · next hx =>
    rw [List.getElem?_eq_none (l := xs) (by omega), List.getElem?_replicate]
    split <;> rfl

/-- Element i of a register made from a list is element i of the list. -/
theorem level_signalOf {i : Nat} (xs : List Bool) (h : i < 192) : level (signalOf xs) i = xs.getD i false := by
  simp [level, signalOf, h, BitVec.getLsbD_ofBoolListLE]

/-- Level i of a built Signal is level i of its content, a space beyond it (40_signal_construction.md R103, R108). -/
theorem level_build {i : Nat} (k : Nat) (bits : List Bool) (h : i < 192) :
    level (build k bits) i = (content k bits).getD i false := by
  rw [build, level_signalOf _ h, getD_padTo _ (by simpa [Config.maxLen] using h)]

/-- The length of a content (40_signal_construction.md R120). -/
theorem length_content (k : Nat) (bits : List Bool) :
    (content k bits).length = 16 + k + 2 * bits.length + 2 * bits.countP id + 1 := by
  have hp : (bits.flatMap pack).length = 2 * bits.length + 2 * bits.countP id := by
    induction bits with
    | nil => rfl
    | cons b t ih => cases b <;> simp [pack, ih] <;> omega
  simp [content, Config.leaderMark, hp]; omega

/-- Bit b of FRAMEj is FB[32·j + b] (42_diagnostics.md R190). -/
theorem getLsbD_frameWord {b : Nat} (sig : Signal) (j : Nat) (h : b < 32) :
    (frameWord sig j).getLsbD b = level sig (32 * j + b) := by
  simp [frameWord, level, h]

theorem length_levels (sig : Signal) : (levels sig).length = 192 := by simp [levels, Config.maxLen]

theorem getElem?_levels {i : Nat} (sig : Signal) (h : i < 192) : (levels sig)[i]? = some (level sig i) := by
  simp [levels, Config.maxLen, h]

end Sys2Proof.Machine
end

