-- ==== Sys2Proof/Laws/Transmitter.lean ====
section
/-! SUPPORT. Everything the transmitter's step can do, row by row (41_transmitter.md R158, R159), said once. -/

namespace Sys2Proof.Machine

theorem txStep_of_idle {s : State} (h : s.busy = false) : txStep s = { s with stb := false } := by simp [txStep, h]

theorem txStep_of_fault {s : State} (h : s.busy = true) (hf : s.tbFault = true) :
    txStep s = faultEnd { s with stb := false } := by simp [txStep, h, hf]

theorem txStep_of_count {s : State} (h : s.busy = true) (hf : s.tbFault = false) (ht : s.tcnt ≠ s.tickCycles - 1) :
    txStep s = { s with stb := false, tcnt := s.tcnt + 1 } := by simp [txStep, h, hf, ht]

theorem txStep_of_abort {s : State} (h : s.busy = true) (hf : s.tbFault = false) (ht : s.tcnt = s.tickCycles - 1)
    (ha : s.abortReq = true) : txStep s = abortEnd { s with stb := false, tcnt := 0 } := by simp [txStep, h, hf, ht, ha]

theorem txStep_of_tick {s : State} (h : s.busy = true) (hf : s.tbFault = false) (ht : s.tcnt = s.tickCycles - 1)
    (ha : s.abortReq = false) : txStep s = tickStep { s with stb := false, tcnt := 0 } := by
  simp [txStep, h, hf, ht, ha]

/-- The level delivered does not depend on STB or TCNT. -/
@[simp] theorem currentLevel_clear (s : State) (b : Bool) (n : Nat) :
    currentLevel { s with stb := b, tcnt := n } = currentLevel s := rfl

theorem tickStep_of_lt {s : State} (h : s.idx < 191) :
    tickStep s = { deliver (currentLevel s) s with idx := s.idx + 1 } := if_pos h

theorem tickStep_of_last {s : State} (h : ¬ s.idx < 191) (hr : s.rem = 0) :
    tickStep s = { deliver (currentLevel s) s with idx := 0, busy := false, phase := .idle, done := true } :=
  (if_neg h).trans (if_pos hr)

theorem tickStep_of_next {s : State} (h : ¬ s.idx < 191) (hr : s.rem ≠ 0) :
    tickStep s = { deliver (currentLevel s) s with
      idx := 0, rem := s.rem - 1, phase := if s.mode = .repeatCode then .repeatCode else .frame } :=
  (if_neg h).trans (if_neg hr)

/-- The rows of the FSM table (41_transmitter.md R158), with everything each of them writes. -/
theorem txStep_cases (s : State) :
    (s.busy = false ∧ txStep s = { s with stb := false }) ∨
    (s.busy = true ∧ s.tbFault = true ∧ txStep s = faultEnd { s with stb := false }) ∨
    (s.busy = true ∧ s.tbFault = false ∧ s.tcnt ≠ s.tickCycles - 1 ∧
      txStep s = { s with stb := false, tcnt := s.tcnt + 1 }) ∨
    (s.busy = true ∧ s.tbFault = false ∧ s.tcnt = s.tickCycles - 1 ∧ s.abortReq = true ∧
      txStep s = abortEnd { s with stb := false, tcnt := 0 }) ∨
    (s.busy = true ∧ s.tbFault = false ∧ s.tcnt = s.tickCycles - 1 ∧ s.abortReq = false ∧ s.idx < 191 ∧
      txStep s = { deliver (currentLevel s) s with tcnt := 0, idx := s.idx + 1 }) ∨
    (s.busy = true ∧ s.tbFault = false ∧ s.tcnt = s.tickCycles - 1 ∧ s.abortReq = false ∧ ¬ s.idx < 191 ∧ s.rem = 0 ∧
      txStep s = { deliver (currentLevel s) s with
        tcnt := 0, idx := 0, busy := false, phase := .idle, done := true }) ∨
    (s.busy = true ∧ s.tbFault = false ∧ s.tcnt = s.tickCycles - 1 ∧ s.abortReq = false ∧ ¬ s.idx < 191 ∧ s.rem ≠ 0 ∧
      txStep s = { deliver (currentLevel s) s with
        tcnt := 0, idx := 0, rem := s.rem - 1, phase := if s.mode = .repeatCode then .repeatCode else .frame }) := by
  rcases (Bool.eq_false_or_eq_true s.busy).symm with hb | hb
  · exact .inl ⟨hb, txStep_of_idle hb⟩
  right
  rcases Bool.eq_false_or_eq_true s.tbFault with hf | hf
  · exact .inl ⟨hb, hf, txStep_of_fault hb hf⟩
  right
  rcases ne_or_eq s.tcnt (s.tickCycles - 1) with ht | ht
  · exact .inl ⟨hb, hf, ht, txStep_of_count hb hf ht⟩
  right
  rcases Bool.eq_false_or_eq_true s.abortReq with ha | ha
  · exact .inl ⟨hb, hf, ht, ha, txStep_of_abort hb hf ht ha⟩
  right
  have h0 := txStep_of_tick hb hf ht ha
  by_cases hi : s.idx < 191
  · exact .inl ⟨hb, hf, ht, ha, hi, h0.trans (tickStep_of_lt hi)⟩
  right
  by_cases hr : s.rem = 0
  · exact .inl ⟨hb, hf, ht, ha, hi, hr, h0.trans (tickStep_of_last hi hr)⟩
  · exact .inr ⟨hb, hf, ht, ha, hi, hr, h0.trans (tickStep_of_next hi hr)⟩

/-- What the transmitter ORs into ERR at an edge. -/
theorem txStep_err (s : State) : (txStep s).err = s.err ||| txRaised s := by
  rcases txStep_cases s with ⟨hb, h⟩ | ⟨hb, hf, h⟩ | ⟨hb, hf, ht, h⟩ | ⟨hb, hf, ht, ha, h⟩ | ⟨hb, hf, ht, ha, _, h⟩ |
    ⟨hb, hf, ht, ha, _, _, h⟩ | ⟨hb, hf, ht, ha, _, _, h⟩ <;> rw [h]
  · simp [txRaised, hb]
  · simp only [txRaised, hb, hf, faultEnd_err]; rfl
  · simp [txRaised, hb, hf, ht]
  · simp only [txRaised, hb, hf, ht, ha, abortEnd_err]; rfl
  all_goals simp [txRaised, hb, hf, ht, ha]

/-- The transmitter reads no ERR bit: it does the same whatever ERR holds, and ORs its bits in. -/
theorem txStep_setErr (e : BitVec 5) (s : State) :
    txStep { s with err := e } = { txStep s with err := e ||| txRaised s } := by
  have he : (txStep { s with err := e }).err = e ||| txRaised s := txStep_err { s with err := e }
  rw [← he]
  rcases txStep_cases s with ⟨hb, h⟩ | ⟨hb, hf, h⟩ | ⟨hb, hf, ht, h⟩ | ⟨hb, hf, ht, ha, h⟩ | ⟨hb, hf, ht, ha, hi, h⟩ |
    ⟨hb, hf, ht, ha, hi, hr, h⟩ | ⟨hb, hf, ht, ha, hi, hr, h⟩ <;> rw [h]
  · rw [txStep_of_idle (s := { s with err := e }) hb]
  · rw [txStep_of_fault (s := { s with err := e }) hb hf]; rfl
  · rw [txStep_of_count (s := { s with err := e }) hb hf ht]
  · rw [txStep_of_abort (s := { s with err := e }) hb hf ht ha]; rfl
  · rw [(txStep_of_tick (s := { s with err := e }) hb hf ht ha).trans (tickStep_of_lt hi)]; rfl
  · rw [(txStep_of_tick (s := { s with err := e }) hb hf ht ha).trans (tickStep_of_last hi hr)]; rfl
  · rw [(txStep_of_tick (s := { s with err := e }) hb hf ht ha).trans (tickStep_of_next hi hr)]; rfl

/-- Clearing ERR bits first changes nothing the transmitter does but ERR. -/
theorem txStep_clearErrors (m : BitVec 5) (s : State) :
    txStep (clearErrors m s) = { txStep s with err := (s.err &&& ~~~m) ||| txRaised s } := txStep_setErr _ s

end Sys2Proof.Machine
end

