-- ==== Sys2Proof/Laws/Edge.lean ====
section
/-! SUPPORT. Everything an edge and a step can do, said once: the combination at one edge (70_reset_and_hazards.md R244),
each command as one host action, and the inversion of `step`. -/

namespace Sys2Proof.Machine

/-- What a command asks for at its edge. -/
def commandAction (i : Instr) (s : State) : HostAction :=
  match i with
  | .nop _ => .nothing
  | .encStd _ => encodeAction (build 8 (bitsStd (stdAddress s.data) (stdCommand s.data))) s
  | .encExt _ => encodeAction (build 8 (bitsExt (extAddress s.data) (extCommand s.data))) s
  | .encRaw _ => encodeAction (build 8 (bitsRaw (rawValue s.data))) s
  | .encRep _ => encodeAction (build 4 []) s
  | .txOnce _ => transmitAction .once 1 0 s
  | .txTimes n => transmitAction .times n.toNat (n - 1) s
  | .txRepeat n => transmitAction .repeatCode (1 + n.toNat) n s
  | .abort _ => .abort

/-- Every command is one edge with its action. -/
theorem exec_eq (i : Instr) (s : State) : exec i s = .next (runEdge (commandAction i s) 0 s) := by
  cases i <;> rfl

/-- What holds of every action an access gives: frames and starts come only while idle, and their data are legal. -/
def Admitted (s : State) : HostAction → Prop
  | .frame sig => s.busy = false ∧ ValidSignal sig
  | .start _ blocks rem0 => s.busy = false ∧ s.fbv = true ∧ s.tbFault = false ∧ (blocks ≠ 0 → rem0.toNat + 1 = blocks)
  | .nothing | .writeData _ | .clearErr _ | .raise _ | .abort => True

theorem admitted_encodeAction (s : State) {sig : Signal} (h : ValidSignal sig) : Admitted s (encodeAction sig s) := by
  unfold encodeAction
  split
  · trivial
  · exact ⟨by simpa using ‹¬ s.busy = true›, h⟩

theorem admitted_transmitAction (s : State) (m : Mode) (b : Nat) (r : Count) (h : b ≠ 0 → r.toNat + 1 = b) :
    Admitted s (transmitAction m b r s) := by
  unfold transmitAction
  repeat' split
  · trivial
  · trivial
  · trivial
  · exact ⟨by simpa using ‹¬ s.busy = true›, by simpa using ‹¬ s.fbv = false›, by simpa using ‹¬ s.tbFault = true›, h⟩

theorem admitted_commandAction (i : Instr) (s : State) : Admitted s (commandAction i s) := by
  cases i with
  | nop _ => trivial
  | abort _ => trivial
  | encStd _ => exact admitted_encodeAction s (.inl ⟨_, _, rfl⟩)
  | encExt _ => exact admitted_encodeAction s (.inr (.inl ⟨_, _, rfl⟩))
  | encRaw _ => exact admitted_encodeAction s (.inr (.inr (.inl ⟨_, rfl⟩)))
  | encRep _ => exact admitted_encodeAction s (.inr (.inr (.inr rfl)))
  | txOnce _ => exact admitted_transmitAction s _ _ _ (by simp)
  | txTimes n =>
    refine admitted_transmitAction s _ _ _ fun h => ?_
    have := n.isLt
    rw [BitVec.toNat_sub]
    simp; omega
  | txRepeat n => exact admitted_transmitAction s _ _ _ fun _ => Nat.add_comm _ _

theorem clearErrors_zero (s : State) : clearErrors 0 s = s := by
  have h : ∀ e : BitVec 5, e &&& ~~~0 = e := by decide
  rw [clearErrors, h]

/-- The state an edge leaves, action by action, over the transmitter's step. -/
theorem runEdge_of_not_clear {a : HostAction} (h : clearMask a = 0) (rd : Word) (s : State) :
    runEdge a rd s = { hostWrites s (txStep s) a with rdata := rd } := by
  rw [runEdge, h, clearErrors_zero]

theorem runEdge_clearErr (m : BitVec 5) (rd : Word) (s : State) :
    runEdge (.clearErr m) rd s = { txStep s with err := (s.err &&& ~~~m) ||| txRaised s, rdata := rd } := by
  simp only [runEdge, clearMask, hostWrites, txStep_clearErrors]

@[simp] theorem runEdge_rdata (a : HostAction) (rd : Word) (s : State) : (runEdge a rd s).rdata = rd := rfl

theorem hostWrites_env (s0 s : State) (a : HostAction) :
    (hostWrites s0 s a).tickCycles = s.tickCycles ∧ (hostWrites s0 s a).tbFault = s.tbFault ∧
      (hostWrites s0 s a).inputs = s.inputs := by
  cases a <;> simp [hostWrites]

@[simp] theorem runEdge_tickCycles (a : HostAction) (rd : Word) (s : State) :
    (runEdge a rd s).tickCycles = s.tickCycles := by simp [runEdge, hostWrites_env]

@[simp] theorem runEdge_tbFault (a : HostAction) (rd : Word) (s : State) : (runEdge a rd s).tbFault = s.tbFault := by
  simp [runEdge, hostWrites_env]

@[simp] theorem runEdge_inputs (a : HostAction) (rd : Word) (s : State) : (runEdge a rd s).inputs = s.inputs := by
  simp [runEdge, hostWrites_env]

/-- The action of a port write, decided from the state before the edge (20_memory.md R61, 30_encoding.md R85). -/
def portAction (addr : Offset) (w : Word) (s : State) : HostAction :=
  match wordIndex addr with
  | 0 =>
    match decode w with
    | .ok i => commandAction i s
    | .error _ => .raise .illegal
  | 1 => .writeData w
  | 3 => .clearErr (w.extractLsb' 0 5)
  | _ => .nothing

/-- A port write is one edge with its action. -/
theorem writeReg_eq (addr : Offset) (w : Word) (s : State) :
    writeReg addr w s = .next (runEdge (portAction addr w s) 0 s) := by
  by_cases h0 : wordIndex addr = 0
  · simp only [writeReg, portAction, h0, issue]
    cases decode w with
    | ok i => exact exec_eq i s
    | error _ => rfl
  · by_cases h1 : wordIndex addr = 1
    · simp only [writeReg, portAction, h1]
    · by_cases h3 : wordIndex addr = 3
      · simp only [writeReg, portAction, h3]
      · simp only [writeReg, portAction]

theorem admitted_portAction (addr : Offset) (w : Word) (s : State) : Admitted s (portAction addr w s) := by
  unfold portAction
  split
  · split
    · exact admitted_commandAction _ s
    · trivial
  all_goals trivial

/-- Where the action of an edge comes from: nothing was written, or it is the action of the port write of that edge. `e`
is the state the edge computes from. -/
def ActionFrom (s e : State) (a : HostAction) : Prop :=
  a = .nothing ∨ ∃ p rest, writesNext s p rest ∧ e = sampled s p rest ∧ a = portAction p.addr p.wdata e

theorem ActionFrom.admitted {s e : State} {a : HostAction} (h : ActionFrom s e a) : Admitted e a := by
  rcases h with h | ⟨p, rest, _, _, h⟩
  · rw [h]; trivial
  · rw [h]; exact admitted_portAction _ _ _

/-- An edge that goes on is a reset, or one action of the host over the transmitter's step. -/
theorem clockEdge_cases {p : Pins} {s t : State} (h : clockEdge p s = .next t) :
    (p.rstN = false ∧ t = holdReset { s with tbFault := p.tbFault }) ∨
    (p.rstN = true ∧ ∃ a rd, t = runEdge a rd { s with tbFault := p.tbFault } ∧
      (p.we = false ∧ a = .nothing ∨
        p.we = true ∧ p.re = false ∧ a = portAction p.addr p.wdata { s with tbFault := p.tbFault })) := by
  unfold clockEdge at h
  dsimp only at h
  split at h
  · next hr => cases h; exact .inl ⟨hr, rfl⟩
  · next hr =>
    refine .inr ⟨by simpa using hr, ?_⟩
    split at h
    · cases h
    · next hw hr =>
      rw [writeReg_eq] at h; cases h; exact ⟨_, 0, rfl, .inr ⟨hw, hr, rfl⟩⟩
    · next hw _ => cases h; exact ⟨.nothing, _, rfl, .inl ⟨hw, rfl⟩⟩
    · next hw _ => cases h; exact ⟨.nothing, _, rfl, .inl ⟨hw, rfl⟩⟩

/-- Everything a step that goes on can do: stand still with the clock stopped, reset, or one action over the transmitter's
step. `e` is the state the step computes from: `s` but for the model's own fields. -/
theorem step_cases {s t : State} (h : step s = .next t) :
    ((∃ rest, s.inputs = .clockStops :: rest) ∧ t = s) ∨
    ∃ b l, let e := { s with tbFault := b, inputs := l }
      (resetsNext s ∧ t = holdReset e) ∨ ∃ a rd, ActionFrom s e a ∧ t = runEdge a rd e := by
  have quiet : ∀ {p : Pins} {l : List Event}, p.rstN = true → p.we = false → clockEdge p { s with inputs := l } = .next t →
      ∃ b l, let e := { s with tbFault := b, inputs := l }
        (resetsNext s ∧ t = holdReset e) ∨ ∃ a rd, ActionFrom s e a ∧ t = runEdge a rd e := by
    intro p l hr hw h
    rcases clockEdge_cases h with ⟨h, _⟩ | ⟨_, a, rd, ht, ha⟩
    · simp [hr] at h
    · exact ⟨p.tbFault, l, .inr ⟨a, rd, .inl (by simpa [hw] using ha), ht⟩⟩
  unfold step takeEvent at h
  split at h
  · next hi => exact .inr (quiet (l := []) rfl rfl (by rw [← hi]; exact h))
  · next p rest hi =>
    rcases clockEdge_cases h with ⟨hr, ht⟩ | ⟨hr, a, rd, ht, ha⟩
    · exact .inr ⟨p.tbFault, rest, .inl ⟨.inr ⟨p, rest, hi, hr⟩, ht⟩⟩
    · refine .inr ⟨p.tbFault, rest, .inr ⟨a, rd, ?_, ht⟩⟩
      rcases ha with ⟨_, ha⟩ | ⟨hw, hre, ha⟩
      · exact .inl ha
      · exact .inr ⟨p, rest, ⟨hi, hr, hw, hre⟩, rfl, ha⟩
  · next hi =>
    split at h
    · exact .inr (quiet (l := s.inputs) rfl rfl h)
    · exact .inr (quiet rfl rfl h)
  · next rest hi => cases h; exact .inr ⟨s.tbFault, rest, .inl ⟨.inl ⟨rest, hi⟩, rfl⟩⟩
  · next rest hi => cases h; exact .inl ⟨⟨rest, hi⟩, rfl⟩

end Sys2Proof.Machine
end

