-- ==== Sys2Proof/Laws/PerInstr.lean ====
section
/-! SUPPORT. Facts about every command as syntax, one lemma a constructor. -/

namespace Sys2Proof.Laws.LegalEncoding

/-- The command's word is legal (30_encoding.md R84). -/
def Statement (i : Instr) : Prop := legalWord (encode i) = true

theorem cmdWord_legal (c : Count) (op : BitVec 4) (h : op ≤ 8) : legalWord (cmdWord c op) = true := by
  simpa [legalWord, opField_cmdWord, rsvField_cmdWord] using h

theorem nop (c : Count) : Statement (.nop c) := cmdWord_legal c _ (by decide)
theorem encStd (c : Count) : Statement (.encStd c) := cmdWord_legal c _ (by decide)
theorem encExt (c : Count) : Statement (.encExt c) := cmdWord_legal c _ (by decide)
theorem encRaw (c : Count) : Statement (.encRaw c) := cmdWord_legal c _ (by decide)
theorem encRep (c : Count) : Statement (.encRep c) := cmdWord_legal c _ (by decide)
theorem txOnce (c : Count) : Statement (.txOnce c) := cmdWord_legal c _ (by decide)
theorem txTimes (n : Count) : Statement (.txTimes n) := cmdWord_legal n _ (by decide)
theorem txRepeat (n : Count) : Statement (.txRepeat n) := cmdWord_legal n _ (by decide)
theorem abort (c : Count) : Statement (.abort c) := cmdWord_legal c _ (by decide)

end Sys2Proof.Laws.LegalEncoding
end

