-- ==== Sys2Proof/Laws/Port.lean ====
section
/-! SUPPORT. What the register port does, offset by offset, and the bits of STATUS. -/

namespace Sys2Proof.Machine

theorem readReg_cmd {s : State} {a : Offset} (h : wordIndex a = 0) : readReg s a = 0 := by simp [readReg, h]

theorem readReg_data {s : State} {a : Offset} (h : wordIndex a = 1) : readReg s a = s.data := by simp [readReg, h]

theorem readReg_reserved {s : State} {a : Offset} (h : 14 ≤ wordIndex a) : readReg s a = 0 := by
  unfold readReg
  split <;> first | omega | rfl

/-- FRAMEj reads as word j of FB (10_state.md R43). -/
theorem readReg_frame {s : State} {j : Nat} (h : j < 6) :
    readReg s (BitVec.ofNat 8 (0x20 + 4 * j)) = frameWord s.fb j := by
  interval_cases j <;> rfl

theorem writeReg_cmd {s : State} {a : Offset} (w : Word) (h : wordIndex a = 0) : writeReg a w s = issue w s := by
  simp [writeReg, h]

theorem writeReg_data {s : State} {a : Offset} (w : Word) (h : wordIndex a = 1) :
    writeReg a w s = .next { txStep s with data := w, rdata := 0 } := by
  simp only [writeReg, h]
  rw [runEdge_of_not_clear rfl]
  rfl

theorem writeReg_err {s : State} {a : Offset} (w : Word) (h : wordIndex a = 3) :
    writeReg a w s = .next { txStep s with
      err := (s.err &&& ~~~ w.extractLsb' 0 5) ||| txRaised s, rdata := 0 } := by
  simp only [writeReg, h, runEdge, clearMask, txStep_clearErrors]
  rfl

/-- Every offset but CMD, DATA and ERR ignores writes (20_memory.md R61, R64). -/
theorem writeReg_ignored {s : State} {a : Offset} (w : Word) (h0 : wordIndex a ≠ 0) (h1 : wordIndex a ≠ 1)
    (h3 : wordIndex a ≠ 3) : writeReg a w s = .next { txStep s with rdata := 0 } := by
  unfold writeReg
  split
  · exact absurd ‹_› h0
  · exact absurd ‹_› h1
  · exact absurd ‹_› h3
  · rw [runEdge_of_not_clear rfl]; rfl

/-- An edge event is one `clockEdge` on the state with the event taken off. -/
theorem step_of_edge {s : State} {p : Pins} {rest : List Event} (h : s.inputs = .edge p :: rest) :
    step s = clockEdge p { s with inputs := rest } := by
  rw [step, takeEvent, h]

/-- With the clock stopped the state stands still (60_exceptions.md R219). -/
theorem step_of_stopped {s : State} {rest : List Event} (h : s.inputs = .clockStops :: rest) : step s = .next s := by
  rw [step, takeEvent, h]

/-- An edge with a write request is one port write. -/
theorem step_of_write {s : State} {p : Pins} {rest : List Event} (h : writesNext s p rest) :
    step s = writeReg p.addr p.wdata (sampled s p rest) := by
  obtain ⟨hi, h1, h2, h3⟩ := h
  simp [step_of_edge hi, clockEdge, h1, h2, h3, sampled]

/-- A word is a command exactly when it is legal (30_encoding.md R84). -/
theorem decode_ok_iff (w : Word) : (∃ i, decode w = .ok i) ↔ (opField w).toNat ≤ 8 ∧ rsvField w = 0 := by
  unfold decode
  by_cases hr : rsvField w = 0
  · simp only [hr, ne_eq, not_true_eq_false, if_false, and_true]
    generalize (opField w).toNat = n
    constructor
    · rintro ⟨i, h⟩
      split at h <;> first | omega | cases h
    · intro h
      interval_cases n <;> exact ⟨_, rfl⟩
  · rw [if_pos hr]
    exact ⟨fun ⟨_, h⟩ => (nomatch h), fun h => absurd h.2 hr⟩

theorem getLsbD_bits (r : BitVec 16) (x : BitVec 8) (p : BitVec 2) (a o f d b : Bool) (i : Nat) :
    (r ++ x ++ p ++ 0#1 ++ BitVec.ofBool a ++ BitVec.ofBool o ++ BitVec.ofBool f ++ BitVec.ofBool d ++
      BitVec.ofBool b : BitVec (16 + 8 + 2 + 1 + 1 + 1 + 1 + 1 + 1)).getLsbD i =
    if i < 1 then b else if i < 2 then d else if i < 3 then f else if i < 4 then o else if i < 5 then a
    else if i < 6 then false else if i < 8 then p.getLsbD (i - 6) else if i < 16 then x.getLsbD (i - 8)
    else r.getLsbD (i - 16) := by
  simp only [BitVec.getLsbD_append, BitVec.getLsbD_ofBool]
  by_cases h : i < 6
  · interval_cases i <;> simp
  · have h1 : ¬ i < 1 := by omega
    have h2 : ¬ i - 1 < 1 := by omega
    have h3 : ¬ i - 1 - 1 < 1 := by omega
    have h4 : ¬ i - 1 - 1 - 1 < 1 := by omega
    have h5 : ¬ i - 1 - 1 - 1 - 1 < 1 := by omega
    have h6 : ¬ i - 1 - 1 - 1 - 1 - 1 < 1 := by omega
    have e6 : i - 1 - 1 - 1 - 1 - 1 - 1 = i - 6 := by omega
    have e7 : (i - 6 < 2) = (i < 8) := by simp only [eq_iff_iff]; omega
    have e8 : i - 6 - 2 = i - 8 := by omega
    have e9 : (i - 8 < 8) = (i < 16) := by simp only [eq_iff_iff]; omega
    have e10 : i - 8 - 8 = i - 16 := by omega
    have g2 : ¬ i < 2 := by omega
    have g3 : ¬ i < 3 := by omega
    have g4 : ¬ i < 4 := by omega
    have g5 : ¬ i < 5 := by omega
    simp only [h, h1, h2, h3, h4, h5, h6, e6, e7, e8, e9, e10, g2, g3, g4, g5, if_false]

/-- The bits of STATUS (10_state.md R40). -/
theorem getLsbD_statusWord (s : State) (i : Nat) : (statusWord s).getLsbD i =
    if i < 1 then s.busy else if i < 2 then s.done else if i < 3 then s.fbv else if i < 4 then s.out
    else if i < 5 then s.abortReq else if i < 6 then false else if i < 8 then s.phase.code.getLsbD (i - 6)
    else if i < 16 then s.idx.getLsbD (i - 8) else s.rem.getLsbD (i - 16) :=
  getLsbD_bits ..

end Sys2Proof.Machine
end

