-- ==== Sys2Proof/Tests/Slice0.lean ====
section
/-! SUPPORT. The model's own tests, and a witness for the hypotheses of every obligation that has any. Expected values
come from the spec's encodings and from the tables of 95_test_vectors.md, named at each test. -/

set_option maxRecDepth 20000

namespace Sys2Proof.Tests

open Sys2Proof.Machine

/-! ## Well-formedness: an ill-formed term for each check -/

theorem test_wf_rejects_times_65536 : (Line.txTimes 65536).wf = false := by decide

theorem test_wf_rejects_repeat_65536 : (Line.txRepeat 65536).wf = false := by decide

theorem test_wf_rejects_wr_offset_beyond_0xFC : (Line.wr 0x100 0).wf = false := by decide

theorem test_wf_rejects_wr_offset_unaligned : (Line.wr 0x05 0).wf = false := by decide

theorem test_wf_rejects_wr_value_of_33_bits : (Line.wr 0x04 0x100000000).wf = false := by decide

theorem test_wf_rejects_rd_offset_beyond_0xFC : (Line.rd 0x100).wf = false := by decide

theorem test_wf_rejects_rd_offset_unaligned : (Line.rd 0x09).wf = false := by decide

theorem test_wf_admits_the_largest_operands :
    (Line.txTimes 65535).wf = true ∧ (Line.wr 0xFC 0xFFFFFFFF).wf = true ∧ (Line.rd 0xFC).wf = true := by decide

theorem test_wf_rejects_pseudo_value : (Pseudo.ldData 0x100000000).wf = false ∧ (Pseudo.sendRaw 0x100000000).wf = false := by
  decide

theorem test_wf_rejects_std_address : (Pseudo.sendStd 256 0).wf = false ∧ (Pseudo.holdStd 256 0 0).wf = false := by decide

theorem test_wf_rejects_ext_address : (Pseudo.sendExt 65536 0).wf = false ∧ (Pseudo.holdExt 65536 0 0).wf = false := by
  decide

theorem test_wf_rejects_command_byte :
    (Pseudo.sendStd 0 256).wf = false ∧ (Pseudo.sendExt 0 256).wf = false ∧ (Pseudo.holdStd 0 256 0).wf = false ∧
      (Pseudo.holdExt 0 256 0).wf = false := by decide

theorem test_wf_rejects_count :
    (Pseudo.holdStd 0 0 65536).wf = false ∧ (Pseudo.holdExt 0 0 65536).wf = false ∧ (Pseudo.resend 65536).wf = false := by
  decide

/-! ## Decoding: words written out field by field, COUNT RSV OP (30_encoding.md R80, R81) -/

theorem test_decode_nop : decode 0b0000000000000000_000000000000_0000 = .ok (.nop 0) := by decide

theorem test_decode_encStd : decode 0b0000000000000000_000000000000_0001 = .ok (.encStd 0) := by decide

theorem test_decode_encExt : decode 0b0000000000000000_000000000000_0010 = .ok (.encExt 0) := by decide

theorem test_decode_encRaw : decode 0b0000000000000000_000000000000_0011 = .ok (.encRaw 0) := by decide

theorem test_decode_encRep : decode 0b0000000000000000_000000000000_0100 = .ok (.encRep 0) := by decide

theorem test_decode_txOnce : decode 0b0000000000000000_000000000000_0101 = .ok (.txOnce 0) := by decide

theorem test_decode_txTimes : decode 0b1000000000000001_000000000000_0110 = .ok (.txTimes 0x8001) := by decide

theorem test_decode_txRepeat : decode 0b1111111111111111_000000000000_0111 = .ok (.txRepeat 0xFFFF) := by decide

theorem test_decode_abort : decode 0b0000000000000000_000000000000_1000 = .ok (.abort 0) := by decide

theorem test_decode_rejects_reserved_opcode : decode 0b0000000000000000_000000000000_1001 = .error .reservedOpcode := by
  decide

theorem test_decode_rejects_reserved_bits : decode 0b0000000000000000_100000000000_0001 = .error .reservedBits := by decide

theorem test_encode_txTimes : encode (.txTimes 3) = 0x00030006 := by decide

theorem test_table_word : decodeTableWord 32 0x00020007 = some (.txRepeat 2) ∧ decodeTableWord 32 0x10 = none := by decide

/-! ## States the tests and the witnesses stand on -/

/-- The next state of an outcome, if it has one. -/
def nextOf : Host.Outcome State Fault Refusal → Option State
  | .next t => some t
  | .fault _ | .refused _ => none

/-- Idle after reset, with DATA written. -/
def idle (data : Word) : State := { State.reset with data := data }

/-- Idle with a valid frame buffer (the repeat code). -/
def ready : State := { State.reset with fb := rs, fbv := true }

/-- The playback of `rs` under way, at a level and a tick count, with blocks left. -/
def playing (idx : BitVec 8) (tcnt : Nat) (rem : Count) : State :=
  { ready with busy := true, phase := .frame, idx := idx, tcnt := tcnt, rem := rem }

/-- A state with one edge at the head of its inputs. -/
def withEdge (p : Pins) (s : State) : State := { s with inputs := [.edge p] }

/-- FRAMEj after a command. -/
def frameAfter (i : Instr) (s : State) (j : Nat) : Option Word := (nextOf (exec i s)).map fun t => frameWord t.fb j

/-- STATUS after a command. -/
def statusAfter (i : Instr) (s : State) : Option Word := (nextOf (exec i s)).map statusWord

/-- ERR after a command. -/
def errAfter (i : Instr) (s : State) : Option (BitVec 5) := (nextOf (exec i s)).map (·.err)

/-! ## The commands, one edge each -/

/-- V20: NOP leaves STATUS and ERR alone. -/
theorem test_nop_idle : nextOf (exec (.nop 0xABCD) ready) = some ready := by decide

/-- 41_transmitter.md R142: the tick counter goes on beside a NOP. -/
theorem test_nop_busy : (nextOf (exec (.nop 0) (playing 0 1 0))).map (·.tcnt) = some 2 := by decide

/-- V1, FRAME1: ENC_STD(0x00, 0x01). -/
theorem test_encStd_frame1 : frameAfter (.encStd 0) (idle 0x00000100) 1 = some 0x11111155 := by decide

/-- V1, FRAME2. -/
theorem test_encStd_frame2 : frameAfter (.encStd 0) (idle 0x00000100) 2 = some 0x15555111 := by decide

/-- V2, FRAME1: ENC_EXT(0xEF00, 0x03). -/
theorem test_encExt_frame1 : frameAfter (.encExt 0) (idle 0x0003EF00) 1 = some 0x45111155 := by decide

/-- V2, FRAME3, with DATA[31:24] ignored (30_encoding.md R82). -/
theorem test_encExt_frame3 : frameAfter (.encExt 0) (idle 0xFF03EF00) 3 = some 0x00444444 := by decide

/-- V3, FRAME2: ENC_RAW(0x00FF827D), bit 31 sent first. -/
theorem test_encRaw_frame2 : frameAfter (.encRaw 0) (idle 0x00FF827D) 2 = some 0x54555111 := by decide

/-- V3, FRAME3. -/
theorem test_encRaw_frame3 : frameAfter (.encRaw 0) (idle 0x00FF827D) 3 = some 0x01144444 := by decide

/-- V4, FRAME0: the repeat code. -/
theorem test_encRep_frame0 : frameAfter (.encRep 0) (idle 77) 0 = some 0x0010FFFF := by decide

/-- 60_exceptions.md R202: an encoder command while BUSY = 1 sets ERR bit 1. -/
theorem test_encRep_busy : errAfter (.encRep 0) (playing 0 0 0) = some 0b00010 := by decide

/-- V15, read at c0+1. -/
theorem test_txOnce_status : statusAfter (.txOnce 0) ready = some 0x00000045 := by decide

/-- 60_exceptions.md R203: a transmit command while FBV = 0 sets ERR bit 2. -/
theorem test_txOnce_noframe : errAfter (.txOnce 0) State.reset = some 0b00100 := by decide

/-- V16, tx.times 0: DONE and FBV, BUSY never 1. -/
theorem test_txTimes_zero : statusAfter (.txTimes 0) ready = some 0x00000006 := by decide

/-- V16, tx.times 2: REM <- 1. -/
theorem test_txTimes_two : statusAfter (.txTimes 2) ready = some 0x00010045 := by decide

/-- P2: after tx.repeat 2, STATUS shows REM = 2. -/
theorem test_txRepeat_two : statusAfter (.txRepeat 2) ready = some 0x00020045 := by decide

/-- 60_exceptions.md R205: a time-base fault at the accepting edge sets ERR bit 4. -/
theorem test_txRepeat_timebase : errAfter (.txRepeat 2) { ready with tbFault := true } = some 0b10000 := by decide

/-- 10_state.md R40: ABORT_PEND is STATUS bit 4. -/
theorem test_abort_pending : statusAfter (.abort 0) (playing 2 1 0) = some 0x00000255 := by decide

/-- V18: no effect while idle. -/
theorem test_abort_idle : nextOf (exec (.abort 0) ready) = some ready := by decide

/-! ## Edges -/

/-- V15: the first level comes with the strobe at a tick boundary. -/
theorem test_tick_delivers : (txStep (playing 0 3 0)).stb = true ∧ (txStep (playing 0 3 0)).out = true ∧
    (txStep (playing 0 3 0)).idx = 1 := by decide

/-- V15: IDX 191 with REM = 0 completes: STATUS 0x00000006. -/
theorem test_last_level_completes : statusWord (txStep (playing 191 3 0)) = 0x00000006 := by decide

/-- 41_transmitter.md R158: after the first block REPEAT mode plays the repeat code. -/
theorem test_next_block_repeat : (txStep { playing 191 3 2 with mode := .repeatCode }).phase = .repeatCode ∧
    (txStep { playing 191 3 2 with mode := .repeatCode }).rem = 1 := by decide

/-- V20: a reserved opcode sets ERR bit 0 and the block goes on. -/
theorem test_illegal_word : (nextOf (step (withEdge (writePins 0x00 9 false) State.reset))).map (·.err) = some 1 := by
  decide

/-- V22: TICKCFG reads 4 when TC = 4. -/
theorem test_read_tickcfg : (nextOf (step (withEdge (readPins 0x14 false) State.reset))).map (·.rdata) = some 4 := by
  decide

/-- V22: addr[1:0] is ignored, so a write to 0x07 reaches DATA. -/
theorem test_write_unaligned :
    (nextOf (step (withEdge (writePins 0x07 0x12345678 false) State.reset))).map (·.data) = some 0x12345678 := by decide

/-- The command word placed for the next step runs as the first command after reset. -/
theorem test_fetch_word : (nextOf (step (State.reset.withFetchWord 32 0x00000004))).map (·.fbv) = some true := by decide

/-- 20_memory.md R67: byte 0 of a register word is its least significant. -/
theorem test_byte_order : byteLane 0x0003EF00 0 = 0x00 ∧ byteLane 0x0003EF00 1 = 0xEF ∧ byteLane 0x0003EF00 3 = 0x00 ∧
    hostByteAddress 0x1000 0x04 1 = 0x1005 := by decide

/-- 10_state.md R20: the output ports. -/
theorem test_outputs : outputs (txStep (playing 0 3 0)) = { rdata := 0, irOut := true, irStb := true, busy := true } := by
  decide

/-- 00_scope.md R4: 16 MHz gives 9000 and 48 MHz 27000; the frame of 192 ticks lasts 108 ms (R2, R3). -/
theorem test_clock_fits : Config.ClockFits 16000000 9000 ∧ Config.ClockFits 48000000 27000 ∧
    Config.durationNs 192 = 108000000 := by
  unfold Config.ClockFits Config.durationNs Config.tickNs; norm_num

/-- 00_scope.md R4 fits every TICK_CYCLES ≥ 1 to one clock, seldom of whole hertz: 4 is 64000/9 Hz. -/
theorem test_clock_fits_fraction : Config.ClockFits (64000 / 9) 4 ∧ ¬ Config.ClockFits 0 0 := by
  unfold Config.ClockFits Config.tickNs; norm_num

/-- 10_state.md R32: 14 bits hold 8999, one bit holds TCNT when TICK_CYCLES = 1. -/
theorem test_tcnt_width : Config.tcntW 1 = 1 ∧ Config.tcntW 4 = 2 ∧ Config.tcntW 9000 = 14 := by
  simp [Config.tcntW, Nat.size, Nat.binaryRec]

/-- 30_encoding.md R92: send.std 0, 1. -/
theorem test_send_std : expand (.sendStd 0 1) = [.wr 0x04 0x100, .cmd .encStd, .cmd .txOnce, .wait] := by decide

/-- V19: `tb_fault` = 1 at the edge of `tx.once` refuses it: ERR = 0x10, STATUS = 0x00000004. -/
theorem test_line_under_fault :
    (nextOf (step { ready with inputs := [lineEvent true (.cmd .txOnce)] })).map (fun t => (t.err, statusWord t)) =
      some (0x10, 0x00000004) := by decide

/-- 30_encoding.md R90: the names of the commands without operand. -/
theorem test_command_names : cmdText .encStd = "enc.std" ∧ cmdText .txOnce = "tx.once" := by decide

/-! ## Witnesses: concrete states and operands that meet every obligation's hypotheses -/

theorem not_reset {p : Pins} {s : State} (h : p.rstN = true) : ¬ resetsNext (withEdge p s) := by
  rintro (⟨rest, hi⟩ | ⟨q, rest, hi, hq⟩)
  · simp [withEdge] at hi
  · simp only [withEdge, List.cons.injEq, Event.edge.injEq] at hi
    rw [← hi.1, h] at hq
    simp at hq

theorem write_next (a : Offset) (w : Word) (f : Bool) (s : State) :
    writesNext (withEdge (writePins a w f) s) (writePins a w f) [] := ⟨rfl, rfl, rfl, rfl⟩

theorem issue_next {w : Word} {i : Instr} (h : decode w = .ok i) (f : Bool) (s : State) :
    issuesNext (withEdge (writePins 0x00 w f) s) i := ⟨_, _, write_next 0x00 w f s, (by decide : wordIndex 0x00 = 0), h⟩

theorem inv_reset : Inv State.reset where
  busy_iff := by decide
  idle_clear := by decide
  busy_fbv := by decide
  phase_mode := by decide
  idx_le := by decide
  tcnt_le := by decide
  fb_valid := fun h => absurd h (by decide)
  tick_pos := by decide

theorem inv_playing : Inv (playing 191 3 2) where
  busy_iff := by decide
  idle_clear := by decide
  busy_fbv := by decide
  phase_mode := by decide
  idx_le := by decide
  tcnt_le := by decide
  fb_valid := fun _ => .inr (.inr (.inr rfl))
  tick_pos := by decide

theorem witness_DecodeOfEncode : (Instr.txTimes 0xFFFF).wf = true ∧ (Instr.abort 0).wf = true := by decide

theorem witness_EncodeOfDecode : decode 0xFFFF0008 = .ok (.abort 0xFFFF) := by decide

theorem witness_IllegalWords_opcode : ∃ s p rest, writesNext s p rest ∧ wordIndex p.addr = 0 ∧
    ¬ ((p.wdata.extractLsb' 0 4).toNat ≤ 8 ∧ p.wdata.extractLsb' 4 12 = 0) :=
  ⟨_, _, _, write_next 0x03 0x00000009 false State.reset, by decide, by decide⟩

theorem witness_IllegalWords_reserved : ∃ s p rest, writesNext s p rest ∧ wordIndex p.addr = 0 ∧ s.busy = true ∧
    ¬ ((p.wdata.extractLsb' 0 4).toNat ≤ 8 ∧ p.wdata.extractLsb' 4 12 = 0) :=
  ⟨_, _, _, write_next 0x00 0x00000018 false (playing 0 0 0), by decide, by decide, by decide⟩

theorem witness_StepRunsDecodedCommand : ∃ s p rest, writesNext s p rest ∧ wordIndex p.addr = 0 ∧
    decode p.wdata = .ok (.txRepeat 0xFFFF) := ⟨_, _, _, write_next 0x00 0xFFFF0007 true ready, by decide, by decide⟩

theorem witness_WriteEffects_cmd : ∃ s p rest, writesNext s p rest ∧ wordIndex p.addr = 0 :=
  ⟨_, _, _, write_next 0x03 8 false ready, by decide⟩

theorem witness_WriteEffects_data : ∃ s p rest, writesNext s p rest ∧ wordIndex p.addr = 1 :=
  ⟨_, _, _, write_next 0x07 8 false ready, by decide⟩

theorem witness_WriteEffects_err : ∃ s p rest, writesNext s p rest ∧ wordIndex p.addr = 3 :=
  ⟨_, _, _, write_next 0x0C 0x1F false ready, by decide⟩

theorem witness_WriteEffects_other : ∃ s p rest, writesNext s p rest ∧ wordIndex p.addr ≠ 0 ∧ wordIndex p.addr ≠ 1 ∧
    wordIndex p.addr ≠ 3 := ⟨_, _, _, write_next 0x08 8 false ready, by decide, by decide, by decide⟩

theorem witness_Reads_read : ∃ (s : State) (p : Pins) (rest : List Event),
    s.inputs = .edge p :: rest ∧ p.rstN = true ∧ p.we = false ∧ p.re = true :=
  ⟨withEdge (readPins 0x08 true) ready, _, _, rfl, rfl, rfl, rfl⟩

theorem witness_Reads_no_request : ∃ (s t : State) (p : Pins) (rest : List Event),
    s.inputs = .edge p :: rest ∧ (p.re = false ∨ p.rstN = false) ∧ step s = .next t :=
  ⟨withEdge quietPins ready, _, _, _, rfl, .inl rfl, rfl⟩

theorem witness_Reads_reset : ∃ (s t : State) (p : Pins) (rest : List Event),
    s.inputs = .edge p :: rest ∧ (p.re = false ∨ p.rstN = false) ∧ p.re = true ∧ step s = .next t :=
  ⟨withEdge { readPins 0x04 false with rstN := false } ready, _, _, _, rfl, .inr rfl, rfl, rfl⟩

theorem witness_Reads_offsets : wordIndex 0x03 = 0 ∧ wordIndex 0x04 = 1 ∧ wordIndex 0x07 = 1 ∧ 14 ≤ wordIndex 0x38 ∧
    14 ≤ wordIndex 0xFF := by decide

theorem witness_ErrorAndCounterViews : ready.tickCycles < 2 ^ 32 ∧ (playing 0 3 0).tcnt < 2 ^ 32 ∧ 4 ≤ wordIndex 0x10 ∧
    wordIndex 0x1F ≤ 7 := by decide

theorem witness_FrameWordLayout : 5 < 6 ∧ 31 < 32 ∧ 191 < 192 ∧ ValidSignal ready.fb :=
  ⟨by decide, by decide, by decide, .inr (.inr (.inr rfl))⟩

theorem witness_ReservedAndReadOnlyOffsets : 0x38 ≤ (0x38 : Offset).toNat ∧ 0x38 ≤ (readPins 0xFF false).addr.toNat ∧
    (readPins 0xFF false).rstN = true ∧ (readPins 0xFF false).we = false ∧ (readPins 0xFF false).re = true ∧
    wordIndex 0x08 = 2 ∧ 4 ≤ wordIndex 0x10 := by decide

theorem witness_ProtocolViolation : ∃ (s : State) (p : Pins) (rest : List Event),
    s.inputs = .edge p :: rest ∧ p.we = true ∧ p.re = true ∧ p.rstN = true :=
  ⟨withEdge { quietPins with we := true, re := true } ready, _, _, rfl, rfl, rfl, rfl⟩

theorem witness_ProtocolViolation_reset : ∃ (s : State) (p : Pins) (rest : List Event),
    s.inputs = .edge p :: rest ∧ p.we = true ∧ p.re = true ∧ p.rstN = false :=
  ⟨withEdge { quietPins with we := true, re := true, rstN := false } ready, _, _, rfl, rfl, rfl, rfl⟩

theorem witness_StoppedClock : ∃ (s : State) (rest : List Event), s.inputs = .clockStops :: rest ∧ s.busy = true :=
  ⟨{ playing 3 1 0 with inputs := [.clockStops] }, _, rfl, rfl⟩

theorem witness_Poll_busy : ∃ (s : State) (rest : List Event), s.inputs = .poll :: rest ∧ s.busy = true :=
  ⟨{ playing 0 0 0 with inputs := [.poll] }, _, rfl, rfl⟩

theorem witness_Poll_idle : ∃ (s : State) (rest : List Event), s.inputs = .poll :: rest ∧ s.busy = false :=
  ⟨{ ready with inputs := [.poll] }, _, rfl, rfl⟩

theorem witness_ResetValues_edge : resetsNext (withEdge resetPins (playing 3 1 4)) := .inr ⟨_, _, rfl, rfl⟩

theorem witness_ResetValues_falls : resetsNext { playing 3 1 4 with inputs := [.resetFalls] } := .inl ⟨_, rfl⟩

theorem witness_ResetMeetsInvariants : 1 ≤ 1 := by decide

theorem witness_StepKeepsInvariants : ∃ s t : State, Inv s ∧ s.busy = true ∧ step s = .next t :=
  ⟨playing 191 3 2, _, inv_playing, rfl, rfl⟩

theorem witness_StepKeepsIdleOutputLow : ∃ s t : State, Inv s ∧ OutLowWhenIdle s ∧ s.busy = false ∧ step s = .next t :=
  ⟨State.reset, _, inv_reset, fun _ => rfl, rfl, rfl⟩

theorem witness_StepKeepsSinkBound : ∃ s t : State, Inv s ∧ SinkBounded s ∧ s.busy = true ∧ step s = .next t :=
  ⟨playing 191 3 2, _, inv_playing, by unfold SinkBounded; decide, rfl, rfl⟩

theorem witness_StepKeepsDoneClear : ∃ s t : State, DoneClearWhileBusy s ∧ s.busy = true ∧ step s = .next t :=
  ⟨playing 191 3 0, _, fun _ => rfl, rfl, rfl⟩

theorem witness_OnlyEncodersWriteFrame : ∃ s t : State, step s = .next t ∧ t.fb ≠ s.fb ∧ ¬ resetsNext s :=
  ⟨withEdge (writePins 0x00 4 false) State.reset, _, rfl, by decide, not_reset rfl⟩

theorem witness_FrameValid_set : (idle 0x100).busy = false ∧ isEncoder (.encStd 0) = true := by decide

theorem witness_FrameValid_cleared : ∃ s t : State, step s = .next t ∧ s.fbv = true ∧ t.fbv = false :=
  ⟨withEdge resetPins ready, _, rfl, rfl, rfl⟩

theorem witness_FrameValid_refused : State.reset.busy = false ∧ State.reset.fbv = false ∧ isTransmit (.txTimes 0) = true := by
  decide

theorem witness_OnlyTransmitWritesMode : ∃ s t : State, step s = .next t ∧ t.mode ≠ s.mode ∧ ¬ resetsNext s :=
  ⟨withEdge (writePins 0x00 0x00000006 false) ready, _, rfl, by decide, not_reset rfl⟩

theorem witness_OnlyDataWritesChangeData : ∃ s t : State, step s = .next t ∧ t.data ≠ s.data ∧ ¬ resetsNext s :=
  ⟨withEdge (writePins 0x04 1 false) ready, _, rfl, by decide, not_reset rfl⟩

theorem witness_ErrorBitsAreSticky : ∃ s t : State,
    step s = .next t ∧ s.err.getLsbD 4 = true ∧ t.err.getLsbD 4 = false ∧ ¬ resetsNext s :=
  ⟨withEdge (writePins 0x0C 0x10 false) { ready with err := 0x1F }, _, rfl, by decide, by decide, not_reset rfl⟩

theorem witness_TickCyclesNeverChanges : ∃ s t : State, step s = .next t := ⟨ready, _, rfl⟩

theorem witness_BusyStarts : ∃ s t : State, step s = .next t ∧ ¬ resetsNext s ∧ s.busy = false ∧ t.busy = true :=
  ⟨withEdge (writePins 0x00 5 false) ready, _, rfl, not_reset rfl, rfl, by decide⟩

theorem witness_BusyEnds_completion : ∃ s t : State,
    step s = .next t ∧ ¬ resetsNext s ∧ s.busy = true ∧ t.busy = false ∧ t.stb = true :=
  ⟨withEdge quietPins (playing 191 3 0), _, rfl, not_reset rfl, rfl, by decide, by decide⟩

theorem witness_BusyEnds_abort : ∃ s t : State,
    step s = .next t ∧ ¬ resetsNext s ∧ s.busy = true ∧ t.busy = false ∧ t.stb = false ∧ t.tbFault = false :=
  ⟨withEdge quietPins { playing 5 3 0 with abortReq := true }, _, rfl, not_reset rfl, rfl, by decide, by decide, by decide⟩

theorem witness_BusyEnds_fault : ∃ s t : State,
    step s = .next t ∧ ¬ resetsNext s ∧ s.busy = true ∧ t.busy = false ∧ t.stb = false :=
  ⟨withEdge { quietPins with tbFault := true } (playing 191 3 0), _, rfl, not_reset rfl, rfl, by decide, by decide⟩

theorem witness_IdleEdges : ∃ (s : State) (p : Pins) (rest : List Event),
    s.inputs = .edge p :: rest ∧ p.rstN = true ∧ p.we = false ∧ s.busy = false :=
  ⟨withEdge (readPins 0x08 true) ready, _, _, rfl, rfl, rfl, rfl⟩

theorem witness_encoder_results : (idle 0xFFFFFFFF).busy = false ∧ ready.busy = false := by decide

theorem witness_RepeatCodeLevels : 191 < 192 := by decide

theorem witness_payload : (bitsRaw 0xFFFFFFFF).length = 32 ∧ 191 < 192 := by decide

theorem witness_MarkCounts : ValidSignal (build 8 (bitsRaw 0xFFFFFFFF)) ∧ 15 < 16 :=
  ⟨.inr (.inr (.inl ⟨_, rfl⟩)), by decide⟩

theorem witness_EncodersAreInjective : ∃ (xs ys : List Bool) (v w : Word) (a c a' c' : Byte) (b b' : BitVec 16),
    xs.length = 32 ∧ ys.length = 32 ∧ build 8 xs = build 8 ys ∧ build 8 (bitsRaw v) = build 8 (bitsRaw w) ∧
    build 8 (bitsStd a c) = build 8 (bitsStd a' c') ∧ build 8 (bitsExt b c) = build 8 (bitsExt b' c') :=
  ⟨bitsRaw 5, bitsRaw 5, 7, 7, 1, 2, 1, 2, 3, 3, rfl, rfl, rfl, rfl, rfl, rfl⟩

theorem witness_RenderingFromFrameWords : 0 < 192 ∧ 191 < 192 := by decide

theorem witness_EncodersIgnoreOtherDataBits : (idle 0x00010100).busy = false ∧ (idle 0xFFFF0100).busy = false ∧
    (0x00010100 : Word).extractLsb' 0 16 = (0xFFFF0100 : Word).extractLsb' 0 16 ∧
    (0x0003EF00 : Word).extractLsb' 0 24 = (0xFF03EF00 : Word).extractLsb' 0 24 := by decide

theorem witness_RejectedWhileBusy : (playing 0 0 0).busy = true ∧ isEncoder (.encRep 0) = true ∧
    isTransmit (.txTimes 0) = true := by decide

theorem witness_Timebase_issue : isTransmit (.txTimes 0) = true ∧ { ready with tbFault := true }.busy = false ∧
    { ready with tbFault := true }.fbv = true ∧ { ready with tbFault := true }.tbFault = true := by decide

theorem witness_Timebase_playing : ∃ (s t : State) (p : Pins) (rest : List Event),
    s.inputs = .edge p :: rest ∧ p.rstN = true ∧ p.tbFault = true ∧ s.busy = true ∧ step s = .next t :=
  ⟨withEdge (writePins 0x00 8 true) (playing 0 0 0), _, _, _, rfl, rfl, rfl, rfl, rfl⟩

theorem witness_Timebase_idle : ∃ (s t : State) (p : Pins) (rest : List Event),
    s.inputs = .edge { p with tbFault := false } :: rest ∧ s.busy = false ∧
    (∀ i, isTransmit i = true → ¬ issuesNext s i) ∧ step s = .next t := by
  refine ⟨withEdge quietPins ready, _, quietPins, [], rfl, rfl, ?_, rfl⟩
  rintro i _ ⟨p, rest, ⟨hi, _, hw, _⟩, _⟩
  simp only [withEdge, List.cons.injEq, Event.edge.injEq] at hi
  rw [← hi.1] at hw
  simp [quietPins] at hw

theorem witness_transmit_starts : ready.busy = false ∧ ready.fbv = true ∧ ready.tbFault = false ∧
    (0xFFFF : Count) ≠ 0 := by decide

theorem witness_Abort_pending : (playing 0 0 0).busy = true ∧ ¬ playbackEnds (playing 0 0 0) := by
  unfold playbackEnds; decide

theorem witness_Abort_at_completion : (playing 191 3 0).busy = true ∧ playbackEnds (playing 191 3 0) := by
  unfold playbackEnds; decide

theorem witness_idle_command : ready.busy = false := by decide

theorem witness_TickCounter_boundary : (playing 0 3 0).busy = true ∧ (playing 0 3 0).tbFault = false ∧
    (playing 0 3 0).tcnt = (playing 0 3 0).tickCycles - 1 := by decide

theorem witness_TickCounter_counts : (playing 0 0 0).busy = true ∧ (playing 0 0 0).tbFault = false ∧
    (playing 0 2 0).tcnt ≠ (playing 0 2 0).tickCycles - 1 := by decide

/-- What the tick statements assume of a state, but for IDX and REM. -/
def atTick (s : State) : Bool := s.busy && !s.tbFault && !s.abortReq && decide (s.tcnt = s.tickCycles - 1)

theorem witness_Tick_within : atTick (playing 190 3 0) = true ∧ (playing 190 3 0).idx < 191 := by decide

theorem witness_Tick_last : atTick (playing 191 3 0) = true ∧ ¬ (playing 191 3 0).idx < 191 ∧ (playing 191 3 0).rem = 0 := by
  decide

theorem witness_Tick_next_block : atTick (playing 191 3 0xFFFF) = true ∧ ¬ (playing 191 3 0xFFFF).idx < 191 ∧
    (playing 191 3 0xFFFF).rem ≠ 0 := by decide

theorem witness_AbortTakenAtTick : { playing 0 3 0 with abortReq := true }.busy = true ∧
    { playing 0 3 0 with abortReq := true }.tbFault = false ∧ { playing 0 3 0 with abortReq := true }.abortReq = true ∧
    (playing 0 3 0).tcnt = (playing 0 3 0).tickCycles - 1 := by decide

theorem witness_FaultEndsPlayback : { playing 0 3 0 with tbFault := true }.busy = true ∧
    { playing 0 3 0 with tbFault := true }.tbFault = true := by decide

theorem witness_SameEdge_abort : ∃ (s t : State) (p : Pins) (rest : List Event),
    s.inputs = .edge p :: rest ∧ p.rstN = true ∧ s.busy = true ∧ step s = .next t ∧ (∃ c, issuesNext s (.abort c)) ∧
    ¬ playbackEnds (sampled s p rest) :=
  ⟨withEdge (writePins 0x00 8 false) (playing 191 3 1), _, _, _, rfl, rfl, rfl, rfl,
    ⟨0, issue_next (by decide) false _⟩, by unfold playbackEnds; decide⟩

theorem witness_SameEdge_ending : ∃ (s t : State) (p : Pins) (rest : List Event),
    s.inputs = .edge p :: rest ∧ p.rstN = true ∧ s.busy = true ∧ step s = .next t ∧ (∃ c, issuesNext s (.abort c)) ∧
    playbackEnds (sampled s p rest) :=
  ⟨withEdge (writePins 0x00 8 false) (playing 191 3 0), _, _, _, rfl, rfl, rfl, rfl,
    ⟨0, issue_next (by decide) false _⟩, by unfold playbackEnds; decide⟩

theorem witness_SameEdge_idle : ready.busy = false ∧ (∀ sig, HostAction.abort ≠ .frame sig) ∧
    ∀ mode blocks rem0, HostAction.abort ≠ .start mode blocks rem0 := ⟨rfl, nofun, nofun⟩

/-- TICK_CYCLES = 1 and a busy host: the first of 192 edges writes DATA, the next polls. -/
theorem witness_PlaybackDelivers : ∃ (s : State) (i : Instr) (j : Nat), isTransmit i = true ∧ s.busy = false ∧
    s.fbv = true ∧ s.tbFault = false ∧ 1 ≤ s.tickCycles ∧ playback s.fb i ≠ [] ∧
    j = (playback s.fb i).length * s.tickCycles ∧ s.inputs ≠ [] ∧ ∀ e ∈ s.inputs.take j, calm e = true :=
  ⟨{ ready with tickCycles := 1, inputs := [.edge (writePins 0x04 5 false), .poll] }, .txOnce 0, 192, by decide, by decide,
    by decide, by decide, by decide, by decide, by decide, by decide, by decide⟩

theorem witness_PlaybackLengths : 191 < 192 ∧ 191 < 192 * (1 : Count).toNat ∧ 192 ≤ 192 ∧ 383 < 192 * (1 + (1 : Count).toNat) := by decide

theorem witness_AbortLatency : ∃ (s : State) (d : Nat), s.busy = true ∧ s.tcnt ≤ s.tickCycles - 1 ∧ 1 ≤ s.tickCycles ∧
    ¬ playbackEnds s ∧ d = s.tickCycles - (txStep s).tcnt ∧ d = 1 ∧ ∀ e ∈ s.inputs.take d, undisturbed e = true :=
  ⟨{ playing 0 2 0 with inputs := [.edge (writePins 0x00 8 false), .poll] }, 1, by decide, by decide, by decide,
    by unfold playbackEnds; decide, by decide, rfl, by decide⟩

/-- The longest latency: ABORT at a tick boundary that does not end the playback. -/
theorem witness_AbortLatency_longest : ∃ (s : State) (d : Nat), s.busy = true ∧ s.tcnt ≤ s.tickCycles - 1 ∧
    1 ≤ s.tickCycles ∧ ¬ playbackEnds s ∧ d = s.tickCycles - (txStep s).tcnt ∧ d = s.tickCycles ∧ d = 4 ∧
    ∀ e ∈ s.inputs.take d, undisturbed e = true :=
  ⟨{ playing 190 3 0 with inputs := [.edge (readPins 0x08 false), .edge (writePins 0x00 8 false), .poll] }, 4, by decide,
    by decide, by decide, by unfold playbackEnds; decide, by decide, by decide, rfl, by decide⟩

theorem witness_HostLines : (Pseudo.holdExt 65535 255 65535).wf = true ∧ 255 < 256 ∧ 65535 < 65536 ∧
    (Line.wr 0xFC 0xFFFFFFFF).wf = true ∧ (Line.rd 0xFC).wf = true ∧
    { ready with inputs := [lineEvent true (.txTimes 65535)] }.inputs = lineEvent true (.txTimes 65535) :: [] ∧
    { ready with inputs := [lineEvent true (.txRepeat 0)] }.inputs = lineEvent true (.txRepeat 0) :: [] ∧
    { ready with inputs := [lineEvent false (.cmd .abort)] }.inputs = lineEvent false (.cmd .abort) :: [] ∧
    { ready with inputs := [lineEvent true (.wr 0xFC 0xFFFFFFFF)] }.inputs = lineEvent true (.wr 0xFC 0xFFFFFFFF) :: [] ∧
    { ready with inputs := [lineEvent true (.rd 0xFC)] }.inputs = lineEvent true (.rd 0xFC) :: [] ∧
    { ready with inputs := [lineEvent false .wait] }.inputs = lineEvent false .wait :: [] := by decide

end Sys2Proof.Tests
end

/-! ## Proofs: the repeat code, STATUS and the frame valid flag (10_state.md R26, R27, R40) -/

section

namespace Sys2Proof.Machine

/-! ### The repeat code -/

/-- The content of the repeat code: a mark of 16 ticks, a space of 4, one trailing mark (10_state.md R27). -/
theorem getD_content_repeat (i : Nat) :
    (content Config.repeatSpace []).getD i false = decide (i < 16 ∨ i = 20) := by
  by_cases hi : i < 21
  · have hmarks : ∀ j < 21, (content Config.repeatSpace []).getD j false = decide (j < 16 ∨ j = 20) := by decide
    exact hmarks i hi
  · have hlen : (content Config.repeatSpace []).length ≤ i := by
      rw [length_content]
      simp only [Config.repeatSpace, List.length_nil, List.countP_nil]
      omega
    have hspace : ¬ (i < 16 ∨ i = 20) := by omega
    rw [List.getD_eq_default _ _ hlen, decide_eq_false hspace]

theorem level_rs {i : Nat} (hi : i < 192) : level rs i = decide (i < 16 ∨ i = 20) := by
  rw [rs, level_build _ _ hi, getD_content_repeat]

/-! ### STATUS -/

theorem readReg_status (s : State) : readReg s 0x08 = statusWord s := rfl

/-- From bit 6 on STATUS holds PHASE, IDX and REM (10_state.md R40). -/
theorem getLsbD_statusWord_of_six_le {i : Nat} (s : State) (h : 6 ≤ i) : (statusWord s).getLsbD i =
    if i < 8 then s.phase.code.getLsbD (i - 6) else if i < 16 then s.idx.getLsbD (i - 8) else s.rem.getLsbD (i - 16) := by
  rw [getLsbD_statusWord, if_neg (by omega), if_neg (by omega), if_neg (by omega), if_neg (by omega), if_neg (by omega),
    if_neg (by omega)]

theorem extractLsb'_statusWord_phase (s : State) : (statusWord s).extractLsb' 6 2 = s.phase.code := by
  refine BitVec.eq_of_getLsbD_eq fun i hi => ?_
  rw [BitVec.getLsbD_extractLsb', getLsbD_statusWord_of_six_le s (by omega), if_pos (by omega)]
  simp [hi]

theorem extractLsb'_statusWord_idx (s : State) : (statusWord s).extractLsb' 8 8 = s.idx := by
  refine BitVec.eq_of_getLsbD_eq fun i hi => ?_
  rw [BitVec.getLsbD_extractLsb', getLsbD_statusWord_of_six_le s (by omega), if_neg (by omega), if_pos (by omega)]
  simp [hi]

theorem extractLsb'_statusWord_rem (s : State) : (statusWord s).extractLsb' 16 16 = s.rem := by
  refine BitVec.eq_of_getLsbD_eq fun i hi => ?_
  rw [BitVec.getLsbD_extractLsb', getLsbD_statusWord_of_six_le s (by omega), if_neg (by omega), if_neg (by omega)]
  simp [hi]

/-! ### The frame valid flag -/

theorem commandAction_of_encoder {i : Instr} {s : State} (hi : isEncoder i = true) (hb : s.busy = false) :
    ∃ sig, commandAction i s = .frame sig := by
  have haccept : ∀ sig, encodeAction sig s = .frame sig := fun sig => by simp [encodeAction, hb]
  cases i with
  | encStd _ | encExt _ | encRaw _ | encRep _ => exact ⟨_, haccept _⟩
  | nop _ | txOnce _ | txTimes _ | txRepeat _ | abort _ => simp [isEncoder] at hi

theorem commandAction_of_transmit {i : Instr} (s : State) (hi : isTransmit i = true) :
    ∃ mode blocks rem0, commandAction i s = transmitAction mode blocks rem0 s := by
  cases i with
  | txOnce _ | txTimes _ | txRepeat _ => exact ⟨_, _, _, rfl⟩
  | nop _ | encStd _ | encExt _ | encRaw _ | encRep _ | abort _ => simp [isTransmit] at hi

/-- NOFRAME comes after REJECT and before TIMEBASE (60_exceptions.md R208). -/
theorem transmitAction_noframe {s : State} (mode : Mode) (blocks : Nat) (rem0 : Count) (hb : s.busy = false)
    (hf : s.fbv = false) : transmitAction mode blocks rem0 s = .raise .noframe := by
  simp [transmitAction, hb, hf]

theorem runEdge_raise_of_idle {s : State} (e : ErrorCode) (rd : Word) (hb : s.busy = false) :
    runEdge (.raise e) rd s = { s with err := s.err ||| e.bit, stb := false, rdata := rd } := by
  rw [runEdge_of_not_clear rfl, txStep_of_idle hb]
  rfl

theorem runEdge_frame_fbv (sig : Signal) (rd : Word) (s : State) : (runEdge (.frame sig) rd s).fbv = true := rfl

/-- No edge without reset clears FBV: an accepted encoder sets it, and nothing else writes it (10_state.md R26). -/
theorem runEdge_keeps_fbv {s : State} (a : HostAction) (rd : Word) (hf : s.fbv = true) :
    (runEdge a rd s).fbv = true := by
  cases a with
  | frame sig => rfl
  | nothing | writeData _ | clearErr _ | raise _ | start _ _ _ | abort => simp [runEdge, hostWrites, hf]

theorem step_keeps_fbv {s t : State} (h : step s = .next t) (hf : s.fbv = true) (hr : ¬ resetsNext s) :
    t.fbv = true := by
  rcases step_cases h with ⟨_, rfl⟩ | ⟨b, l, ⟨hreset, _⟩ | ⟨a, rd, _, rfl⟩⟩
  · exact hf
  · exact absurd hreset hr
  · exact runEdge_keeps_fbv a rd hf

theorem exec_encoder_fbv {i : Instr} {s : State} (hb : s.busy = false) (hi : isEncoder i = true) :
    ∃ t, exec i s = .next t ∧ t.fbv = true := by
  obtain ⟨sig, hsig⟩ := commandAction_of_encoder hi hb
  exact ⟨_, exec_eq i s, by rw [hsig, runEdge_frame_fbv]⟩

theorem exec_transmit_noframe {i : Instr} {s : State} (hb : s.busy = false) (hf : s.fbv = false)
    (hi : isTransmit i = true) :
    exec i s = .next { s with err := s.err ||| ErrorCode.noframe.bit, stb := false, rdata := 0 } := by
  obtain ⟨mode, blocks, rem0, haction⟩ := commandAction_of_transmit s hi
  rw [exec_eq, haction, transmitAction_noframe _ _ _ hb hf, runEdge_raise_of_idle _ _ hb]

/-! ### The obligations -/

/-- Settles O24: the encoders' action is a frame write, which sets FBV; `step_cases` leaves reset as the only step that
clears it; and the transmit commands share one NOFRAME branch. -/
theorem frameValidFlag : Obligations.FrameValidFlag := by
  refine ⟨fun _ => rfl, fun _ _ => exec_encoder_fbv, fun s t h hs ht => ?_, fun _ _ => exec_transmit_noframe, fun s => ?_⟩
  · by_contra hr
    have hkept : t.fbv = true := step_keeps_fbv h hs hr
    simp [ht] at hkept
  · rw [readReg_status, getLsbD_statusWord]
    rfl

/-- Settles O8: the single bits by the bit law of STATUS, the three wider fields by their own lemmas, and the ignored write
as one of the offsets that take none. -/
theorem statusFields : Obligations.StatusFields := by
  refine ⟨fun s => ?_, fun s w => writeReg_ignored w (by decide) (by decide) (by decide)⟩
  simp only [readReg_status]
  refine ⟨?_, ?_, ?_, ?_, ?_, ?_, extractLsb'_statusWord_phase s, extractLsb'_statusWord_idx s,
    extractLsb'_statusWord_rem s⟩
  all_goals
    rw [getLsbD_statusWord]
    rfl

/-- Settles O35: the levels of the repeat code's content, padded with spaces. -/
theorem repeatCodeLevels : Obligations.RepeatCodeLevels := ⟨rfl, fun _ => level_rs⟩

end Sys2Proof.Machine
end

/-! ## Proofs: accesses to the register port (20_memory.md R61, R62, R64) -/

section

namespace Sys2Proof.Machine

/-! ### One edge, by the access it carries -/

theorem runEdge_nothing (rd : Word) (s : State) : runEdge .nothing rd s = { txStep s with rdata := rd } :=
  runEdge_of_not_clear rfl rd s

/-- The register views show nothing of the environment's fields. -/
theorem readReg_setEnv (s : State) (b : Bool) (l : List Event) (a : Offset) :
    readReg { s with tbFault := b, inputs := l } a = readReg s a := rfl

theorem clockEdge_reset {p : Pins} (s : State) (hr : p.rstN = false) :
    clockEdge p s = .next (holdReset { s with tbFault := p.tbFault }) := by simp [clockEdge, hr]

theorem clockEdge_write {p : Pins} (s : State) (hr : p.rstN = true) (hw : p.we = true) (hre : p.re = false) :
    clockEdge p s = writeReg p.addr p.wdata { s with tbFault := p.tbFault } := by simp [clockEdge, hr, hw, hre]

/-- A read is the transmitter's step with `rdata` at the view before the edge (20_memory.md R62). -/
theorem clockEdge_read {p : Pins} (s : State) (hr : p.rstN = true) (hw : p.we = false) (hre : p.re = true) :
    clockEdge p s = .next { txStep { s with tbFault := p.tbFault } with rdata := readReg s p.addr } := by
  simp [clockEdge, hr, hw, hre, runEdge_nothing, readReg_setEnv]

theorem clockEdge_no_access {p : Pins} (s : State) (hr : p.rstN = true) (hw : p.we = false) (hre : p.re = false) :
    clockEdge p s = .next { txStep { s with tbFault := p.tbFault } with rdata := 0 } := by
  simp [clockEdge, hr, hw, hre, runEdge_nothing]

/-- Only a read without reset puts anything on `rdata` (20_memory.md R62). -/
theorem clockEdge_rdata_eq_zero {p : Pins} {s t : State} (hp : p.re = false ∨ p.rstN = false)
    (h : clockEdge p s = .next t) : t.rdata = 0 := by
  cases hr : p.rstN with
  | false =>
    rw [clockEdge_reset s hr] at h
    cases h
    rfl
  | true =>
    have hre : p.re = false := hp.resolve_right (by simp [hr])
    cases hw : p.we with
    | true =>
      rw [clockEdge_write s hr hw hre, writeReg_eq] at h
      cases h
      rfl
    | false =>
      rw [clockEdge_no_access s hr hw hre] at h
      cases h
      rfl

/-- The reserved offsets are the words from 14 on (20_memory.md R63). -/
theorem fourteen_le_wordIndex {a : Offset} (h : 0x38 ≤ a.toNat) : 14 ≤ wordIndex a := by
  unfold wordIndex
  omega

/-! ### The obligations -/

/-- Settles O6: a write edge is one port write, and the port has one law for each of the four kinds of offset. -/
theorem writeEffectsByOffset : Obligations.WriteEffectsByOffset := by
  intro s p rest hwrite
  rw [step_of_write hwrite]
  exact ⟨writeReg_cmd _, writeReg_data _, writeReg_err _, writeReg_ignored _⟩

/-- Settles O7: a read edge by `clockEdge_read`, every other edge by `clockEdge_rdata_eq_zero`, and the views of CMD, DATA
and the reserved offsets. -/
theorem readsShowTheStateBefore : Obligations.ReadsShowTheStateBefore := by
  refine ⟨fun s p rest hi hr hw hre => ?_, fun s t p rest hi hp h => ?_, fun _ _ => readReg_cmd, fun _ _ => readReg_data,
    fun _ _ => readReg_reserved⟩
  · rw [step_of_edge hi, clockEdge_read _ hr hw hre, readReg_setEnv, sampled]
  · rw [step_of_edge hi] at h
    exact clockEdge_rdata_eq_zero hp h

/-- Settles O11: a reserved offset reads 0, so a read of it is the transmitter's step with `rdata` 0; and CMD, DATA and ERR,
words 0, 1 and 3, are the only words that take a write. -/
theorem reservedAndReadOnlyOffsets : Obligations.ReservedAndReadOnlyOffsets := by
  have hzero : ∀ (s : State) (a : Offset), 0x38 ≤ a.toNat → readReg s a = 0 := fun _ _ h =>
    readReg_reserved (fourteen_le_wordIndex h)
  refine ⟨hzero, fun s p hr hw hre ha => ?_, fun s a w ha => ?_⟩
  · rw [clockEdge_read s hr hw hre, hzero s _ ha]
  · exact writeReg_ignored w (by omega) (by omega) (by omega)

end Sys2Proof.Machine
end

/-! ## Proofs: illegal CMD writes (30_encoding.md R84) -/

section

namespace Sys2Proof.Machine

/-- An edge that raises an error is the transmitter's step with one ERR bit set, in any BUSY state. -/
theorem runEdge_raise (e : ErrorCode) (rd : Word) (s : State) :
    runEdge (.raise e) rd s = { txStep s with err := (txStep s).err ||| e.bit, rdata := rd } :=
  runEdge_of_not_clear rfl rd s

theorem issue_of_error {w : Word} {r : DecodeError} (s : State) (h : decode w = .error r) :
    issue w s = .next (runEdge (.raise .illegal) 0 s) := by
  rw [issue, h]

/-- Whichever of the two reasons makes a word illegal, its issue raises ILLEGAL (60_exceptions.md R201). -/
theorem issue_of_illegal {w : Word} (s : State) (h : ¬ ((opField w).toNat ≤ 8 ∧ rsvField w = 0)) :
    issue w s = .next { txStep s with err := (txStep s).err ||| ErrorCode.illegal.bit, rdata := 0 } := by
  cases hd : decode w with
  | ok i => exact absurd ((decode_ok_iff w).mp ⟨i, hd⟩) h
  | error r => rw [issue_of_error s hd, runEdge_raise]

/-! ### The obligation -/

/-- Settles O3: the legal words by `decode_ok_iff`; a CMD write edge issues its word, and issuing an illegal one is the
transmitter's step with the ILLEGAL bit set. -/
theorem illegalWordsOnlySetIllegal : Obligations.IllegalWordsOnlySetIllegal := by
  refine ⟨decode_ok_iff, fun s p rest hwrite hcmd hillegal => ?_⟩
  rw [step_of_write hwrite, writeReg_cmd _ hcmd]
  exact issue_of_illegal _ hillegal

end Sys2Proof.Machine
end

/-! ## Proofs: the transmitter's step (41_transmitter.md R142, R146 to R149) -/

section

namespace Sys2Proof.Machine

/-- The sequencer's choice of R146 as the one test on PHASE that it makes. -/
theorem currentLevel_eq_ite (s : State) :
    currentLevel s = if s.phase = .frame then level s.fb s.idx.toNat else level rs s.idx.toNat := by
  cases h : s.phase <;> simp [currentLevel, h]

/-- Every row of the tick step delivers a level, the last one of a playback included (41_transmitter.md R146). -/
theorem tickStep_stb (s : State) : (tickStep s).stb = true := by
  by_cases hi : s.idx < 191
  · rw [tickStep_of_lt hi]; rfl
  by_cases hr : s.rem = 0
  · rw [tickStep_of_last hi hr]; rfl
  · rw [tickStep_of_next hi hr]; rfl

/-! ### The obligations -/

/-- Settles O52: a boundary with a pending abort ends the playback, any other delivers, and neither touches the TCNT that
the boundary itself clears; between boundaries the step is `txStep_of_count`. -/
theorem tickCounterCounts : Obligations.TickCounterCounts := by
  refine fun s hb hf => ⟨fun ht => ?_, txStep_of_count hb hf⟩
  cases ha : s.abortReq with
  | true =>
    rw [txStep_of_abort hb hf ht ha]
    exact ⟨abortEnd_tcnt _, .inr (abortEnd_busy _)⟩
  | false =>
    rw [txStep_of_tick hb hf ht ha]
    exact ⟨tickStep_tcnt _, .inl (tickStep_stb _)⟩

/-- Settles O53: the boundary is a tick step, which has one row within a block, one at the end of the last block and one at
the end of any other. -/
theorem tickDeliversAndAdvances : Obligations.TickDeliversAndAdvances := by
  intro s hb hf ha ht lvl
  have hlvl : lvl = currentLevel s := (currentLevel_eq_ite s).symm
  rw [hlvl, txStep_of_tick hb hf ht ha]
  exact ⟨fun hi => tickStep_of_lt hi, fun hi hr => tickStep_of_last hi hr, fun hi hr => tickStep_of_next hi hr⟩

/-- Settles O54: the boundary takes the abort, and `abortEnd` writes what R147 lists. -/
theorem abortTakenAtTick : Obligations.AbortTakenAtTick :=
  fun _ hb hf ha ht => txStep_of_abort hb hf ht ha

/-- Settles O55: a fault comes before the tick counter and the abort request, and `faultEnd` writes what R148 lists. -/
theorem faultEndsPlayback : Obligations.FaultEndsPlayback :=
  fun _ hb hf => txStep_of_fault hb hf

end Sys2Proof.Machine
end

/-! ## Proofs: the FRAME words and the rendering of a Signal (42_diagnostics.md R190, R191) -/

section

namespace Sys2Proof.Machine

/-! ### The leader mark -/

/-- Every content begins with the leader mark (40_signal_construction.md R101). -/
theorem getD_content_leaderMark {i : Nat} (k : Nat) (bits : List Bool) (h : i < 16) :
    (content k bits).getD i false = true := by
  have hmark : i < (List.replicate Config.leaderMark true).length := by simpa [Config.leaderMark] using h
  rw [content, List.append_assoc, List.append_assoc, List.getD_append _ _ _ _ hmark, List.getD_eq_getElem _ _ hmark,
    List.getElem_replicate]

/-- A valid Signal is built, whichever of the four constructions gives it. -/
theorem exists_build_of_validSignal {sig : Signal} (h : ValidSignal sig) : ∃ k bits, sig = build k bits := by
  rcases h with ⟨_, _, hsig⟩ | ⟨_, _, hsig⟩ | ⟨_, hsig⟩ | hsig
  · exact ⟨_, _, hsig⟩
  · exact ⟨_, _, hsig⟩
  · exact ⟨_, _, hsig⟩
  · exact ⟨_, _, hsig⟩

theorem level_leaderMark_of_validSignal {sig : Signal} {i : Nat} (hv : ValidSignal sig) (hi : i < 16) :
    level sig i = true := by
  obtain ⟨k, bits, rfl⟩ := exists_build_of_validSignal hv
  rw [level_build _ _ (by omega), getD_content_leaderMark _ _ hi]

/-! ### FB as the host reads it -/

/-- The register view of FRAMEj, bit by bit (42_diagnostics.md R190). -/
theorem getLsbD_readReg_frame {j b : Nat} (s : State) (hj : j < 6) (hb : b < 32) :
    (readReg s (BitVec.ofNat 8 (0x20 + 4 * j))).getLsbD b = level s.fb (32 * j + b) := by
  rw [readReg_frame hj, getLsbD_frameWord _ _ hb]

/-- The inverse layout: where the host finds one level of FB (42_diagnostics.md R190). -/
theorem level_eq_getLsbD_readReg_frame {i : Nat} (s : State) (hi : i < 192) :
    level s.fb i = (readReg s (BitVec.ofNat 8 (0x20 + 4 * (i / 32)))).getLsbD (i % 32) := by
  rw [getLsbD_readReg_frame s (by omega) (Nat.mod_lt _ (by decide)), Nat.div_add_mod]

theorem readReg_frame0 (s : State) : readReg s 0x20 = frameWord s.fb 0 := rfl

/-- The leader mark fills the low half of FRAME0 (42_diagnostics.md R190). -/
theorem extractLsb'_readReg_frame0 {s : State} (hv : ValidSignal s.fb) :
    (readReg s 0x20).extractLsb' 0 16 = 0xFFFF := by
  have hones : (0xFFFF : BitVec 16) = BitVec.allOnes 16 := rfl
  refine BitVec.eq_of_getLsbD_eq fun b hb => ?_
  rw [readReg_frame0, BitVec.getLsbD_extractLsb', getLsbD_frameWord _ _ (by omega),
    level_leaderMark_of_validSignal hv (by omega), hones, BitVec.getLsbD_allOnes, Bool.and_true]

/-! ### The rendering -/

theorem length_render (sig : Signal) : (render sig).length = 192 := by rw [render, List.length_map, length_levels]

theorem getElem?_render {i : Nat} (sig : Signal) (hi : i < 192) :
    (render sig)[i]? = some (if level sig i then '1' else '0') := by
  rw [render, List.getElem?_map, getElem?_levels sig hi, Option.map_some]

/-- Words that hold a Signal's levels in the layout of R190 give its canonical text (42_diagnostics.md R191). -/
theorem renderWords_eq_render {frame : Nat → Word} {sig : Signal}
    (h : ∀ i < 192, level sig i = (frame (i / 32)).getLsbD (i % 32)) : renderWords frame = render sig := by
  rw [renderWords, render, levels, List.map_map]
  refine List.map_congr_left fun i hi => ?_
  rw [Function.comp_apply, h i (List.mem_range.mp hi)]

/-! ### The obligations -/

/-- Settles O42: the text has one character for each level, and the FRAME words hold the levels where the host looks for
them. -/
theorem renderingFromFrameWords : Obligations.RenderingFromFrameWords :=
  ⟨fun sig => ⟨length_render sig, fun _ => getElem?_render sig⟩,
    fun s => renderWords_eq_render fun _ => level_eq_getLsbD_readReg_frame s⟩

/-- Settles O10: FRAMEj is word j of FB, in both directions of the layout; and the low half of FRAME0 is the leader mark,
which every valid Signal begins with. -/
theorem frameWordLayout : Obligations.FrameWordLayout :=
  ⟨fun s _ _ => getLsbD_readReg_frame s, fun s _ => level_eq_getLsbD_readReg_frame s, fun _ => extractLsb'_readReg_frame0⟩

end Sys2Proof.Machine
end

/-! ## Proofs: REJECT and TIMEBASE (60_exceptions.md R202, R205) -/

section

namespace Sys2Proof.Machine

/-! ### Commands while BUSY = 1 -/

theorem encodeAction_reject {s : State} (sig : Signal) (hb : s.busy = true) : encodeAction sig s = .raise .reject := by
  simp [encodeAction, hb]

/-- REJECT comes before NOFRAME and TIMEBASE (60_exceptions.md R208). -/
theorem transmitAction_reject {s : State} (mode : Mode) (blocks : Nat) (rem0 : Count) (hb : s.busy = true) :
    transmitAction mode blocks rem0 s = .raise .reject := by
  simp [transmitAction, hb]

theorem commandAction_reject {i : Instr} {s : State} (hb : s.busy = true)
    (hi : isEncoder i = true ∨ isTransmit i = true) : commandAction i s = .raise .reject := by
  cases i with
  | encStd _ | encExt _ | encRaw _ | encRep _ => exact encodeAction_reject _ hb
  | txOnce _ | txTimes _ | txRepeat _ => exact transmitAction_reject _ _ _ hb
  | nop _ | abort _ => simp [isEncoder, isTransmit] at hi

/-! ### A time-base fault at issue -/

theorem transmitAction_timebase {s : State} (mode : Mode) (blocks : Nat) (rem0 : Count) (hb : s.busy = false)
    (hv : s.fbv = true) (hf : s.tbFault = true) : transmitAction mode blocks rem0 s = .raise .timebase := by
  simp [transmitAction, hb, hv, hf]

theorem exec_transmit_timebase {i : Instr} {s : State} (hi : isTransmit i = true) (hb : s.busy = false)
    (hv : s.fbv = true) (hf : s.tbFault = true) :
    exec i s = .next { s with err := s.err ||| ErrorCode.timebase.bit, stb := false, rdata := 0 } := by
  obtain ⟨mode, blocks, rem0, haction⟩ := commandAction_of_transmit s hi
  rw [exec_eq, haction, transmitAction_timebase _ _ _ hb hv hf, runEdge_raise_of_idle _ _ hb]

/-! ### A time-base fault during a playback -/

/-- ERR after an edge: the bits the host clears go first, so a bit raised by either side survives
(70_reset_and_hazards.md R244). -/
theorem runEdge_err (a : HostAction) (rd : Word) (s : State) :
    (runEdge a rd s).err = (s.err &&& ~~~clearMask a) ||| txRaised s ||| hostRaised a := by
  have htx : (txStep (clearErrors (clearMask a) s)).err = (s.err &&& ~~~clearMask a) ||| txRaised s := by
    rw [txStep_clearErrors]
  cases a with
  | raise e => exact congrArg (· ||| e.bit) htx
  | nothing | writeData _ | clearErr _ | frame _ | start _ _ _ | abort => simp [runEdge, hostWrites, hostRaised, htx]

/-- An ABORT at an edge that ends the playback requests nothing (41_transmitter.md R156). -/
theorem requestAbort_of_ended (before : State) {s : State} (hs : s.busy = false) : requestAbort before s = s :=
  if_neg (by simp [hs])

/-- Where the transmitter's step ends a playback, the host's access reaches DATA and ERR only: encoders and starts are
rejected, and an ABORT finds nothing left to cancel. -/
theorem exists_hostWrites_of_ended {before s : State} {a : HostAction} (ha : Admitted before a)
    (hb : before.busy = true) (hs : s.busy = false) :
    ∃ d e, hostWrites before s a = { s with data := d, err := e } := by
  cases a with
  | nothing | clearErr _ => exact ⟨s.data, s.err, rfl⟩
  | writeData w => exact ⟨w, s.err, rfl⟩
  | raise c => exact ⟨s.data, s.err ||| c.bit, rfl⟩
  | abort => exact ⟨s.data, s.err, requestAbort_of_ended before hs⟩
  | frame _ | start _ _ _ =>
    have hidle : before.busy = false := ha.1
    simp [hb] at hidle

/-- With a time-base fault during a playback the edge is `faultEnd` but for DATA, ERR and `rdata`, whatever the host
does. -/
theorem exists_runEdge_of_fault {s : State} {a : HostAction} (rd : Word) (ha : Admitted s a) (hb : s.busy = true)
    (hf : s.tbFault = true) :
    ∃ d e, runEdge a rd s = { faultEnd { s with stb := false } with data := d, err := e, rdata := rd } := by
  have htx : txStep (clearErrors (clearMask a) s) = faultEnd { clearErrors (clearMask a) s with stb := false } :=
    txStep_of_fault hb hf
  obtain ⟨d, e, hwrites⟩ := exists_hostWrites_of_ended ha hb (faultEnd_busy _)
  exact ⟨d, e, by rw [runEdge, htx, hwrites]; rfl⟩

theorem runEdge_err_timebase {s : State} (a : HostAction) (rd : Word) (hb : s.busy = true) (hf : s.tbFault = true) :
    (runEdge a rd s).err.getLsbD 4 = true := by
  have hraised : txRaised s = 0b10000 := by simp [txRaised, hb, hf]
  simp [runEdge_err, hraised]

theorem clockEdge_cases_admitted {p : Pins} {s t : State} (hr : p.rstN = true) (h : clockEdge p s = .next t) :
    ∃ a rd, Admitted { s with tbFault := p.tbFault } a ∧ t = runEdge a rd { s with tbFault := p.tbFault } := by
  rcases clockEdge_cases h with ⟨hreset, _⟩ | ⟨_, a, rd, ht, ⟨_, ha⟩ | ⟨_, _, ha⟩⟩
  · simp [hr] at hreset
  · exact ⟨a, rd, by rw [ha]; trivial, ht⟩
  · exact ⟨a, rd, by rw [ha]; exact admitted_portAction _ _ _, ht⟩

/-! ### A time-base fault while BUSY = 0 -/

/-- Of the commands only the transmit commands look at `tb_fault`. -/
theorem commandAction_setTbFault {i : Instr} (s : State) (b : Bool) (hi : isTransmit i = false) :
    commandAction i { s with tbFault := b } = commandAction i s := by
  cases i with
  | nop _ | encStd _ | encExt _ | encRaw _ | encRep _ | abort _ => rfl
  | txOnce _ | txTimes _ | txRepeat _ => simp [isTransmit] at hi

theorem portAction_setTbFault {addr : Offset} {w : Word} (s : State) (b : Bool)
    (hcmd : wordIndex addr = 0 → ∀ i, decode w = .ok i → isTransmit i = false) :
    portAction addr w { s with tbFault := b } = portAction addr w s := by
  unfold portAction
  split
  · next haddr =>
    cases hd : decode w with
    | ok i => exact commandAction_setTbFault s b (hcmd haddr i hd)
    | error _ => rfl
  all_goals rfl

/-- The host's writes of an edge do not look at `tb_fault`: what depends on it is in the action. -/
theorem hostWrites_setTbFault (before s : State) (a : HostAction) (b : Bool) :
    hostWrites { before with tbFault := b } { s with tbFault := b } a =
      { hostWrites before s a with tbFault := b } := by
  cases a with
  | nothing | writeData _ | clearErr _ | raise _ | frame _ => rfl
  | start _ blocks _ =>
    by_cases h : blocks = 0
    · simp [hostWrites, startPlayback, h]
    · simp [hostWrites, startPlayback, h]
  | abort =>
    by_cases h : (before.busy && s.busy) = true
    · simp [hostWrites, requestAbort, h]
    · simp [hostWrites, requestAbort, h]

theorem txStep_setTbFault_of_idle {s : State} (b : Bool) (hb : s.busy = false) :
    txStep { s with tbFault := b } = { txStep s with tbFault := b } := by
  rw [txStep_of_idle hb, txStep_of_idle (s := { s with tbFault := b }) hb]

theorem runEdge_setTbFault_of_idle {s : State} (a : HostAction) (rd : Word) (b : Bool) (hb : s.busy = false) :
    runEdge a rd { s with tbFault := b } = { runEdge a rd s with tbFault := b } := by
  have htx : txStep (clearErrors (clearMask a) { s with tbFault := b }) =
      { txStep (clearErrors (clearMask a) s) with tbFault := b } :=
    txStep_setTbFault_of_idle (s := clearErrors (clearMask a) s) b hb
  rw [runEdge, htx, hostWrites_setTbFault, runEdge]

/-- Without reset and without a transmit command the level of `tb_fault` reaches the transmitter's step alone: the edge
has one action and one `rdata` for both levels. -/
theorem exists_clockEdge_setTbFault {p : Pins} {s t : State} (hr : p.rstN = true)
    (hcmd : p.we = true → p.re = false → wordIndex p.addr = 0 →
      ∀ i, decode p.wdata = .ok i → isTransmit i = false)
    (h : clockEdge p s = .next t) :
    ∃ a rd, ∀ b, clockEdge { p with tbFault := b } s = .next (runEdge a rd { s with tbFault := b }) := by
  rcases Bool.eq_false_or_eq_true p.we with hw | hw
  · rcases Bool.eq_false_or_eq_true p.re with hre | hre
    · simp [clockEdge, hr, hw, hre] at h
    · refine ⟨portAction p.addr p.wdata s, 0, fun b => ?_⟩
      rw [clockEdge_write (p := { p with tbFault := b }) s hr hw hre, writeReg_eq,
        portAction_setTbFault s b (hcmd hw hre)]
  · rcases Bool.eq_false_or_eq_true p.re with hre | hre
    · refine ⟨.nothing, readReg s p.addr, fun b => ?_⟩
      rw [clockEdge_read (p := { p with tbFault := b }) s hr hw hre, runEdge_nothing]
    · refine ⟨.nothing, 0, fun b => ?_⟩
      rw [clockEdge_no_access (p := { p with tbFault := b }) s hr hw hre, runEdge_nothing]

/-- While BUSY = 0, an edge that writes no transmit command does the same whatever the level of `tb_fault`. -/
theorem clockEdge_setTbFault_of_idle {p : Pins} {s t : State} (b : Bool) (hb : s.busy = false)
    (hcmd : p.rstN = true → p.we = true → p.re = false → wordIndex p.addr = 0 →
      ∀ i, decode p.wdata = .ok i → isTransmit i = false)
    (h : clockEdge p s = .next t) : clockEdge { p with tbFault := b } s = .next { t with tbFault := b } := by
  rcases Bool.eq_false_or_eq_true p.rstN with hr | hr
  · obtain ⟨a, rd, hedge⟩ := exists_clockEdge_setTbFault hr (hcmd hr) h
    have ht : t = { runEdge a rd s with tbFault := p.tbFault } := by
      rw [← runEdge_setTbFault_of_idle _ _ _ hb]
      exact Host.Outcome.next.inj (h.symm.trans (hedge p.tbFault))
    rw [hedge b, runEdge_setTbFault_of_idle _ _ _ hb, ht]
  · rw [clockEdge_reset s hr] at h
    cases h
    exact clockEdge_reset (p := { p with tbFault := b }) s hr

/-! ### The obligations -/

/-- Settles O44: an encoder or transmit command asks for REJECT while BUSY = 1, and an edge that raises an error is the
transmitter's step with that ERR bit set. -/
theorem rejectedWhileBusy : Obligations.RejectedWhileBusy := by
  intro s i hb hi
  rw [exec_eq, commandAction_reject hb hi, runEdge_raise]
  rfl

/-- Settles O45: the transmit commands share one TIMEBASE branch; a fault during a playback leaves the host DATA and ERR
alone to write over `faultEnd`; and an idle edge without a transmit command does not look at `tb_fault`. -/
theorem timebaseFault : Obligations.TimebaseFault := by
  refine ⟨fun s i => exec_transmit_timebase, fun s t p rest hi hr hf hb h => ?_, fun s t p rest hi hb hcmd h => ?_⟩
  · rw [step_of_edge hi] at h
    obtain ⟨a, rd, ha, rfl⟩ := clockEdge_cases_admitted hr h
    have herr := runEdge_err_timebase (s := { s with tbFault := p.tbFault, inputs := rest }) a rd hb hf
    obtain ⟨d, e, hedge⟩ := exists_runEdge_of_fault rd ha hb hf
    refine ⟨?_, ?_, ?_, ?_, herr, ?_, ?_⟩
    all_goals
      rw [hedge]
      rfl
  · rw [step_of_edge hi] at h
    refine (step_of_edge rfl).trans (clockEdge_setTbFault_of_idle (p := { p with tbFault := false })
      (s := { s with inputs := rest }) true hb (fun hr hw hre haddr i hd => ?_) h)
    by_contra htx
    exact hcmd i (by simpa using htx) ⟨_, rest, ⟨hi, hr, hw, hre⟩, haddr, hd⟩

end Sys2Proof.Machine
end

/-! ## Proofs: reset and the combination at one edge (70_reset_and_hazards.md R230, R244) -/

section

namespace Sys2Proof.Machine

/-! ### Reset -/

/-- Both forms of reset, at an edge and between edges, hold everything at reset (70_reset_and_hazards.md R230, R231). -/
theorem exists_step_eq_holdReset {s : State} (h : resetsNext s) :
    ∃ b l, step s = .next (holdReset { s with tbFault := b, inputs := l }) := by
  rcases h with ⟨rest, hi⟩ | ⟨p, rest, hi, hr⟩
  · exact ⟨s.tbFault, rest, by rw [step, takeEvent, hi]⟩
  · exact ⟨p.tbFault, rest, by rw [step_of_edge hi, clockEdge_reset _ hr]⟩

/-! ### Where an ABORT comes from -/

theorem commandAction_eq_abort_iff (i : Instr) (s : State) : commandAction i s = .abort ↔ ∃ c, i = .abort c := by
  have hencode : ∀ sig, encodeAction sig s ≠ .abort := fun sig => by
    unfold encodeAction
    split <;> simp
  have htransmit : ∀ mode blocks rem0, transmitAction mode blocks rem0 s ≠ .abort := fun mode blocks rem0 => by
    unfold transmitAction
    repeat' split
    all_goals simp
  cases i with
  | encStd _ | encExt _ | encRaw _ | encRep _ => simp [commandAction, hencode]
  | txOnce _ | txTimes _ | txRepeat _ => simp [commandAction, htransmit]
  | nop _ | abort _ => simp [commandAction]

theorem portAction_eq_abort_iff (addr : Offset) (w : Word) (s : State) :
    portAction addr w s = .abort ↔ wordIndex addr = 0 ∧ ∃ c, decode w = .ok (.abort c) := by
  unfold portAction
  split
  · next haddr =>
    cases hd : decode w with
    | ok i => simp [haddr, commandAction_eq_abort_iff]
    | error _ => simp
  all_goals simp_all

theorem issuesNext_iff {s : State} {p : Pins} {rest : List Event} (i : Instr) (hi : s.inputs = .edge p :: rest)
    (hr : p.rstN = true) :
    issuesNext s i ↔ p.we = true ∧ p.re = false ∧ wordIndex p.addr = 0 ∧ decode p.wdata = .ok i := by
  constructor
  · rintro ⟨q, tail, ⟨hq, _, hw, hre⟩, haddr, hd⟩
    obtain ⟨rfl, _⟩ : p = q ∧ rest = tail := by simpa [hi] using hq
    exact ⟨hw, hre, haddr, hd⟩
  · rintro ⟨hw, hre, haddr, hd⟩
    exact ⟨p, rest, ⟨hi, hr, hw, hre⟩, haddr, hd⟩

/-- An edge without reset is one admitted action of the host, and that action is an ABORT exactly when the host issues
one. -/
theorem exists_action_of_edge {s t : State} {p : Pins} {rest : List Event} (hi : s.inputs = .edge p :: rest)
    (hr : p.rstN = true) (h : step s = .next t) :
    ∃ a rd, Admitted (sampled s p rest) a ∧ (a = .abort ↔ ∃ c, issuesNext s (.abort c)) ∧
      t = runEdge a rd (sampled s p rest) := by
  rw [step_of_edge hi] at h
  simp only [issuesNext_iff _ hi hr]
  rcases clockEdge_cases h with ⟨hreset, _⟩ | ⟨_, a, rd, ht, ⟨hw, rfl⟩ | ⟨hw, hre, rfl⟩⟩
  · simp [hr] at hreset
  · exact ⟨.nothing, rd, trivial, by simp [hw], ht⟩
  · exact ⟨_, rd, admitted_portAction _ _ _, by simp [hw, hre, portAction_eq_abort_iff], ht⟩

/-! ### What the host's access writes over the transmitter's step -/

theorem requestAbort_eq (before s : State) :
    requestAbort before s = { s with abortReq := s.abortReq || (before.busy && s.busy) } := by
  by_cases h : (before.busy && s.busy) = true
  · simp [requestAbort, h]
  · simp [requestAbort, h]

/-- Apart from an accepted encode or start the host's access reaches DATA, ERR and ABORT_REQ only. -/
theorem exists_hostWrites_eq {a : HostAction} (hframe : ∀ sig, a ≠ .frame sig)
    (hstart : ∀ mode blocks rem0, a ≠ .start mode blocks rem0) (before s : State) :
    ∃ d e, hostWrites before s a = { s with
      data := d, err := e, abortReq := s.abortReq || (before.busy && s.busy && decide (a = .abort)) } := by
  cases a with
  | nothing | clearErr _ => exact ⟨s.data, s.err, by simp [hostWrites]⟩
  | writeData w => exact ⟨w, s.err, by simp [hostWrites]⟩
  | raise c => exact ⟨s.data, s.err ||| c.bit, by simp [hostWrites, raiseError]⟩
  | abort => exact ⟨s.data, s.err, by simp [hostWrites, requestAbort_eq]⟩
  | frame sig => exact absurd rfl (hframe sig)
  | start mode blocks rem0 => exact absurd rfl (hstart mode blocks rem0)

/-- Such an edge is the transmitter's step but for DATA, ERR, `rdata`, and ABORT_REQ where an ABORT meets a playback
that goes on (70_reset_and_hazards.md R244). -/
theorem exists_runEdge_eq {a : HostAction} (hframe : ∀ sig, a ≠ .frame sig)
    (hstart : ∀ mode blocks rem0, a ≠ .start mode blocks rem0) (rd : Word) (s : State) :
    ∃ d e, runEdge a rd s = { txStep s with
      data := d, err := e, rdata := rd,
      abortReq := (txStep s).abortReq || (s.busy && (txStep s).busy && decide (a = .abort)) } := by
  obtain ⟨d, e, hwrites⟩ := exists_hostWrites_eq hframe hstart s (txStep (clearErrors (clearMask a) s))
  exact ⟨d, e, by rw [runEdge, hwrites, txStep_clearErrors]⟩

/-- While BUSY = 1 no access encodes or starts. -/
theorem Admitted.ne_frame_and_ne_start {s : State} {a : HostAction} (ha : Admitted s a) (hb : s.busy = true) :
    (∀ sig, a ≠ .frame sig) ∧ ∀ mode blocks rem0, a ≠ .start mode blocks rem0 := by
  have hbusy : s.busy ≠ false := by simp [hb]
  exact ⟨fun sig h => hbusy (h ▸ ha).1, fun mode blocks rem0 h => hbusy (h ▸ ha).1⟩

/-- A delivery before the last one ends nothing (41_transmitter.md R146). -/
theorem not_playbackEnds {s : State} (hf : s.tbFault = false) (ha : s.abortReq = false)
    (hmore : s.idx < 191 ∨ s.rem ≠ 0) : ¬ playbackEnds s := by
  rintro (hfault | ⟨_, habort | ⟨hidx, hrem⟩⟩)
  · simp [hf] at hfault
  · simp [ha] at habort
  · exact hmore.elim hidx (· hrem)

/-- BUSY after the transmitter's step of a playback: 0 exactly where the step ends it (41_transmitter.md R158). -/
theorem txStep_busy_eq_false_iff {s : State} (hb : s.busy = true) : (txStep s).busy = false ↔ playbackEnds s := by
  rcases txStep_cases s with ⟨hidle, _⟩ | ⟨_, hf, h⟩ | ⟨_, hf, ht, h⟩ | ⟨_, hf, ht, ha, h⟩ | ⟨_, hf, ht, ha, hidx, h⟩ |
    ⟨_, hf, ht, ha, hidx, hrem, h⟩ | ⟨_, hf, ht, ha, hidx, hrem, h⟩
  · simp [hb] at hidle
  · exact iff_of_true (by simp [h]) (.inl hf)
  · exact iff_of_false (by simp [h, hb]) (by simp [playbackEnds, hf, ht])
  · exact iff_of_true (by simp [h]) (.inr ⟨ht, .inl ha⟩)
  · exact iff_of_false (by simp [h, hb]) (not_playbackEnds hf ha (.inl hidx))
  · exact iff_of_true (by simp [h]) (.inr ⟨ht, .inr ⟨hidx, hrem⟩⟩)
  · exact iff_of_false (by simp [h, hb]) (not_playbackEnds hf ha (.inr hrem))

/-! ### The obligations -/

/-- Settles O56: ERR by `runEdge_err`; the other items by `exists_runEdge_eq`, since a busy edge admits no encode and no
start, and BUSY after the transmitter's step says whether an ABORT still finds a playback. -/
theorem sameEdgeCombination : Obligations.SameEdgeCombination := by
  refine ⟨fun a rd s => ?_, fun s t p rest hi hr hb h => ?_, fun _ => txStep_of_idle, txStep_data,
    fun a rd s hb hframe hstart => ?_⟩
  · rw [runEdge_err, BitVec.or_assoc, BitVec.or_comm (txRaised s), ← BitVec.or_assoc]
  · obtain ⟨a, rd, ha, habort, rfl⟩ := exists_action_of_edge hi hr h
    obtain ⟨hframe, hstart⟩ := ha.ne_frame_and_ne_start hb
    obtain ⟨d, e, hedge⟩ := exists_runEdge_eq hframe hstart rd (sampled s p rest)
    have hbusy : (sampled s p rest).busy = true := hb
    rw [hedge, ← habort, ← txStep_busy_eq_false_iff hbusy]
    refine ⟨rfl, fun hissued hgoes => ?_, fun hnot => ?_⟩
    · simp [hbusy, hissued, hgoes]
    · rcases hnot with hnone | hends
      · simp [hnone]
      · simp [hends]
  · obtain ⟨d, e, hedge⟩ := exists_runEdge_eq hframe hstart rd s
    rw [hedge, txStep_of_idle hb]
    simp [hb]

/-- Settles O17: either form of reset is `holdReset`, which has one law for each field. -/
theorem resetValues : Obligations.ResetValues := by
  intro s h
  obtain ⟨b, l, hstep⟩ := exists_step_eq_holdReset h
  exact ⟨_, hstep, by simp [level]⟩

end Sys2Proof.Machine
end

/-! ## Proofs: decoding and encoding (30_encoding.md R80, R81, R84) -/

section

namespace Sys2Proof

theorem decode_encode (i : Instr) : decode (encode i) = .ok i := by
  cases i with
  | nop c | encStd c | encExt c | encRaw c | encRep c | txOnce c | txTimes c | txRepeat c | abort c =>
    simp [decode, encode, rsvField_cmdWord, opField_cmdWord, countField_cmdWord]

/-- A word with RSV = 0 is its COUNT under the number its OP field holds. -/
theorem cmdWord_countField {w : Word} {op : BitVec 4} (hrsv : rsvField w = 0) (hop : (opField w).toNat = op.toNat) :
    cmdWord (countField w) op = w := by
  rw [← BitVec.eq_of_toNat_eq hop, cmdWord_of_fields w hrsv]

/-- Decoding loses no bit: each opcode's row keeps COUNT, and RSV is 0. -/
theorem encode_of_decode {w : Word} {i : Instr} (h : decode w = .ok i) : encode i = w := by
  unfold decode at h
  split at h
  · cases h
  · next hrsv =>
    split at h
    case h_10 => cases h
    all_goals
      next hop =>
        cases h
        exact cmdWord_countField (not_not.mp hrsv) hop

/-! ### The obligations -/

/-- Settles O1: the fields of a command's word are RSV = 0, its opcode and its COUNT, row by row. -/
theorem decodeOfEncode : Obligations.DecodeOfEncode := fun i _ => decode_encode i

/-- Settles O2: a decoded word has RSV = 0, so it is made of the COUNT and OP its term keeps. -/
theorem encodeOfDecode : Obligations.EncodeOfDecode := fun _ _ => encode_of_decode

/-- Settles O4: each canonical word is decoded, a closed computation. -/
theorem specWordsDecode : Obligations.SpecWordsDecode := by
  unfold Obligations.SpecWordsDecode
  decide

end Sys2Proof
end

/-! ## Proofs: payloads, contents and frames (40_signal_construction.md R120 to R125) -/

section

namespace Sys2Proof.Machine

/-! ### The bits of a word as a list -/

/-- The bits of a word, least significant first (lsbf of 40_signal_construction.md R104 at every width). -/
def bitList {n : Nat} (x : BitVec n) : List Bool := (List.range n).map x.getLsbD

theorem popcount_eq_countP {n : Nat} (x : BitVec n) : popcount x = (bitList x).countP id := by
  rw [bitList, List.countP_map]
  rfl

theorem length_bitList {n : Nat} (x : BitVec n) : (bitList x).length = n := by simp [bitList]

theorem getElem_bitList {n i : Nat} (x : BitVec n) (h : i < (bitList x).length) : (bitList x)[i] = x.getLsbD i := by
  simp [bitList]

theorem bitList_injective {n : Nat} {x y : BitVec n} (h : bitList x = bitList y) : x = y := by
  refine BitVec.eq_of_getLsbD_eq fun i hi => ?_
  rw [← getElem_bitList x (by rwa [length_bitList]), ← getElem_bitList y (by rwa [length_bitList])]
  simp only [h]

theorem bitList_append {m n : Nat} (hi : BitVec m) (lo : BitVec n) : bitList (hi ++ lo) = bitList lo ++ bitList hi := by
  refine List.ext_getElem (by simp [length_bitList, Nat.add_comm]) fun i _ _ => ?_
  rw [getElem_bitList, BitVec.getLsbD_append, List.getElem_append]
  split <;> simp_all [getElem_bitList, length_bitList]

theorem bitList_not {n : Nat} (x : BitVec n) : bitList (~~~x) = (bitList x).map (! ·) := by
  refine List.ext_getElem (by simp [length_bitList]) fun i hi _ => ?_
  have hn : i < n := by rwa [length_bitList] at hi
  rw [getElem_bitList, List.getElem_map, getElem_bitList, BitVec.getLsbD_not, decide_eq_true hn, Bool.true_and]

theorem getLsbD_reverse_of_lt {n i : Nat} (x : BitVec n) (h : i < n) : x.reverse.getLsbD i = x.getLsbD (n - 1 - i) := by
  rw [BitVec.getLsbD_reverse, BitVec.getMsbD_eq_getLsbD, decide_eq_true h, Bool.true_and]

theorem bitList_reverse {n : Nat} (x : BitVec n) : bitList x.reverse = (bitList x).reverse := by
  refine List.ext_getElem (by simp [length_bitList]) fun i hi _ => ?_
  have hn : i < n := by rwa [length_bitList] at hi
  rw [getElem_bitList, List.getElem_reverse, getElem_bitList, getLsbD_reverse_of_lt x hn, length_bitList]

theorem countP_bitList_not {n : Nat} (x : BitVec n) : (bitList x).countP id + (bitList (~~~x)).countP id = n := by
  have hlen := List.length_eq_countP_add_countP id (l := bitList x)
  rw [bitList_not, List.countP_map]
  simpa [length_bitList, Function.comp_def] using hlen.symm

/-! ### The payloads as bits of one word -/

theorem bitList_halves (a : BitVec 16) :
    bitList a = bitList (a.extractLsb' 0 8) ++ bitList (a.extractLsb' 8 8) := by
  have ha : a.extractLsb' 8 8 ++ a.extractLsb' 0 8 = a :=
    (BitVec.extractLsb'_append_extractLsb'_eq_extractLsb' (start₁ := 0) (len₁ := 8) rfl).trans
      BitVec.extractLsb'_eq_self
  rw [← bitList_append, ha]

theorem bitsExt_eq (a : BitVec 16) (c : Byte) : bitsExt a c = bitList a ++ bitList c ++ bitList (~~~c) := by
  rw [bitList_halves]
  rfl

/-- The payload of ENC_STD is that of ENC_EXT with the complement as the high address byte. -/
theorem bitsStd_eq (a c : Byte) : bitsStd a c = bitsExt (~~~a ++ a) c := by
  rw [bitsExt_eq, bitList_append]
  rfl

theorem bitsRaw_eq (v : Word) : bitsRaw v = (bitList v).reverse := by
  rw [← bitList_reverse]
  refine List.map_congr_left fun i hi => ?_
  exact (getLsbD_reverse_of_lt v (List.mem_range.mp hi)).symm

theorem bitsRaw_reverse (v : Word) : bitsRaw v.reverse = bitList v := by
  rw [bitsRaw_eq, bitList_reverse, List.reverse_reverse]

/-- Reversing a word of four bytes reverses the bytes and their order. -/
theorem rev8_append (w x y z : Byte) : rev8 w ++ rev8 x ++ rev8 y ++ rev8 z = BitVec.reverse (z ++ y ++ x ++ w) := by
  refine bitList_injective ?_
  simp only [rev8, bitList_append, bitList_reverse, List.reverse_append, List.append_assoc]

theorem rawOfStd_eq (a c : Byte) : rawOfStd a c = BitVec.reverse (~~~c ++ c ++ ~~~a ++ a) := rev8_append ..

theorem rawOfExt_eq (a : BitVec 16) (c : Byte) : rawOfExt a c =
    BitVec.reverse (~~~c ++ c ++ a.extractLsb' 8 8 ++ a.extractLsb' 0 8) := rev8_append ..

theorem bitsRaw_rawOfStd (a c : Byte) : bitsRaw (rawOfStd a c) = bitsStd a c := by
  rw [rawOfStd_eq, bitsRaw_reverse, bitList_append, bitList_append, bitList_append, bitsStd_eq, bitsExt_eq]
  rw [bitList_append]
  simp

theorem bitsRaw_rawOfExt (a : BitVec 16) (c : Byte) : bitsRaw (rawOfExt a c) = bitsExt a c := by
  rw [rawOfExt_eq, bitsRaw_reverse, bitList_append, bitList_append, bitList_append, bitsExt_eq, bitList_halves]
  simp

/-! ### Lengths -/

theorem countP_bitsExt (a : BitVec 16) (c : Byte) : (bitsExt a c).countP id = popcount a + 8 := by
  rw [bitsExt_eq, List.countP_append, List.countP_append, Nat.add_assoc, countP_bitList_not, popcount_eq_countP]

theorem countP_bitsStd (a c : Byte) : (bitsStd a c).countP id = 16 := by
  rw [bitsStd_eq, countP_bitsExt, popcount_eq_countP, bitList_append, List.countP_append, countP_bitList_not]

theorem countP_bitsRaw (v : Word) : (bitsRaw v).countP id = popcount v := by
  rw [bitsRaw_eq, List.countP_reverse, popcount_eq_countP]

theorem popcount_le {n : Nat} (x : BitVec n) : popcount x ≤ n := by
  have hle : (bitList x).countP id ≤ (bitList x).length := List.countP_le_length
  rwa [← popcount_eq_countP, length_bitList] at hle

/-- The length of a frame's content: 89 levels and two for each 1 bit (40_signal_construction.md R120). -/
theorem length_content_frame {bits : List Bool} (h : bits.length = 32) :
    (content 8 bits).length = 89 + 2 * bits.countP id := by
  rw [length_content, h]
  omega

theorem length_content_frame_le {bits : List Bool} (h : bits.length = 32) : (content 8 bits).length ≤ 153 := by
  have hones : bits.countP id ≤ bits.length := List.countP_le_length
  rw [length_content_frame h]
  omega

/-! ### Marks -/

/-- Where mark j stands, counted from the end of the leader: the sum of the lengths of the bits before it
(40_signal_construction.md R121). -/
def markOffset (bits : List Bool) (j : Nat) : Nat := 2 * j + 2 * (bits.take j).countP id

theorem length_pack (b : Bool) : (pack b).length = 2 + 2 * [b].countP id := by cases b <;> rfl

theorem markOffset_cons_succ (b : Bool) (bits : List Bool) (j : Nat) :
    markOffset (b :: bits) (j + 1) = (pack b).length + markOffset bits j := by
  have hones : (b :: bits.take j).countP id = [b].countP id + (bits.take j).countP id := by
    rw [← List.countP_append, List.singleton_append]
  rw [length_pack, markOffset, markOffset, List.take_succ_cons, hones]
  omega

/-- What follows the leader: the packed payload and the trailing mark (40_signal_construction.md R103). -/
def packed (bits : List Bool) : List Bool := bits.flatMap pack ++ [true]

theorem packed_cons (b : Bool) (bits : List Bool) : packed (b :: bits) = pack b ++ packed bits := by
  simp [packed]

theorem getD_pack {i : Nat} (b : Bool) (h : i < (pack b).length) : (pack b).getD i false = decide (i = 0) := by
  cases b <;> simp [pack] at h <;> interval_cases i <;> rfl

/-- The marks of the packed payload are the first tick of each bit, and the trailing mark. -/
theorem getD_packed (bits : List Bool) (i : Nat) :
    (packed bits).getD i false = true ↔ ∃ j ≤ bits.length, i = markOffset bits j := by
  induction bits generalizing i with
  | nil =>
    cases i <;> simp [packed, markOffset]
  | cons b bits ih =>
    rw [packed_cons]
    by_cases hi : i < (pack b).length
    · rw [List.getD_append _ _ _ _ hi, getD_pack b hi]
      constructor
      · intro h
        exact ⟨0, Nat.zero_le _, of_decide_eq_true h⟩
      · rintro ⟨j, _, rfl⟩
        cases j with
        | zero => rfl
        | succ j =>
          rw [markOffset_cons_succ] at hi
          omega
    · rw [List.getD_append_right _ _ _ _ (by omega), ih]
      constructor
      · rintro ⟨j, hj, h⟩
        exact ⟨j + 1, by simpa using hj, by rw [markOffset_cons_succ]; omega⟩
      · rintro ⟨j, hj, rfl⟩
        cases j with
        | zero => exact absurd (by cases b <;> simp [pack, markOffset]) hi
        | succ j => exact ⟨j, by simpa using hj, by rw [markOffset_cons_succ]; omega⟩

theorem countP_packed (bits : List Bool) : (packed bits).countP id = bits.length + 1 := by
  induction bits with
  | nil => rfl
  | cons b bits ih =>
    have hone : (pack b).countP id = 1 := by cases b <;> rfl
    rw [packed_cons, List.countP_append, ih, hone, List.length_cons]
    omega

theorem content_eq (k : Nat) (bits : List Bool) :
    content k bits = List.replicate 16 true ++ (List.replicate k false ++ packed bits) := by
  simp [content, packed, Config.leaderMark]

/-- Where the marks of a content stand: the leader, then the marks of the packed payload after the leader's space. -/
theorem getD_content (k : Nat) (bits : List Bool) (i : Nat) :
    (content k bits).getD i false = true ↔ i < 16 ∨ ∃ j ≤ bits.length, i = 16 + k + markOffset bits j := by
  by_cases hmark : i < 16
  · rw [getD_content_leaderMark k bits hmark]
    simp [hmark]
  rw [content_eq, List.getD_append_right _ _ _ _ (by simpa using hmark), List.length_replicate]
  by_cases hspace : i - 16 < k
  · rw [List.getD_append _ _ _ _ (by simpa using hspace), List.getD_replicate _ hspace]
    simp only [Bool.false_eq_true, hmark, false_or, false_iff, not_exists, not_and]
    intro j _
    omega
  · rw [List.getD_append_right _ _ _ _ (by simpa using hspace), List.length_replicate, getD_packed]
    simp only [hmark, false_or]
    exact exists_congr fun j => and_congr_right fun _ => by omega

theorem countP_content (k : Nat) (bits : List Bool) : (content k bits).countP id = bits.length + 17 := by
  rw [content_eq, List.countP_append, List.countP_append, countP_packed]
  simp [List.countP_replicate]
  omega

/-! ### The levels of a built Signal -/

theorem levels_build (k : Nat) (bits : List Bool) : levels (build k bits) = padTo 192 (content k bits) := by
  refine List.ext_getElem (by rw [length_levels, length_padTo]) fun i hi _ => ?_
  have hi' : i < 192 := by rwa [length_levels] at hi
  rw [← List.getD_eq_getElem _ false, ← List.getD_eq_getElem _ false, getD_padTo _ hi', ← level_build k bits hi',
    List.getD_eq_getElem?_getD, getElem?_levels _ hi', Option.getD_some]

theorem popcount_eq_countP_levels (sig : Signal) : popcount sig = (levels sig).countP id := popcount_eq_countP sig

theorem countP_padTo {k : Nat} {xs : List Bool} (h : xs.length ≤ k) : (padTo k xs).countP id = xs.countP id := by
  rw [padTo, List.take_append, List.take_of_length_le h, List.countP_append]
  simp [List.countP_replicate]

/-- Every mark of a content that fits 192 levels is a mark of the Signal. -/
theorem popcount_build {k : Nat} {bits : List Bool} (h : (content k bits).length ≤ 192) :
    popcount (build k bits) = bits.length + 17 := by
  rw [popcount_eq_countP_levels, levels_build, countP_padTo h, countP_content]

theorem popcount_frame {bits : List Bool} (h : bits.length = 32) : popcount (build 8 bits) = 49 := by
  have hfits := length_content_frame_le h
  rw [popcount_build (by omega), h]

theorem popcount_rs : popcount rs = 17 := popcount_build (by decide)

/-! ### Valid Signals end with a space -/

/-- The content of a valid Signal leaves room: at most 153 levels (40_signal_construction.md R120). -/
theorem exists_content_of_validSignal {sig : Signal} (h : ValidSignal sig) :
    ∃ k bits, sig = build k bits ∧ (content k bits).length ≤ 153 := by
  rcases h with ⟨a, c, hsig⟩ | ⟨a, c, hsig⟩ | ⟨v, hsig⟩ | hsig
  · exact ⟨8, _, hsig, length_content_frame_le (length_bitsStd a c)⟩
  · exact ⟨8, _, hsig, length_content_frame_le (length_bitsExt a c)⟩
  · exact ⟨8, _, hsig, length_content_frame_le (length_bitsRaw v)⟩
  · exact ⟨4, [], hsig, by decide⟩

theorem level_last_of_validSignal {sig : Signal} (h : ValidSignal sig) : level sig 191 = false := by
  obtain ⟨k, bits, rfl, hlen⟩ := exists_content_of_validSignal h
  rw [level_build _ _ (by decide), List.getD_eq_default _ _ (by omega)]

theorem validSignal_rs : ValidSignal rs := .inr (.inr (.inr rfl))

/-! ### Different payloads -/

theorem getD_packed_zero (bits : List Bool) : (packed bits).getD 0 false = true :=
  (getD_packed bits 0).mpr ⟨0, Nat.zero_le _, rfl⟩

/-- The third tick of a bit tells its value: the next mark where the bit is 0, a space where it is 1
(40_signal_construction.md R102). -/
theorem getD_packed_cons_two (b : Bool) (bits : List Bool) : (packed (b :: bits)).getD 2 false = !b := by
  rw [packed_cons]
  cases b with
  | false => exact getD_packed_zero bits
  | true => rfl

theorem packed_injective {xs ys : List Bool} (hlen : xs.length = ys.length)
    (h : ∀ i, (packed xs).getD i false = (packed ys).getD i false) : xs = ys := by
  induction xs generalizing ys with
  | nil => exact (List.length_eq_zero_iff.mp hlen.symm).symm
  | cons b xs ih =>
    cases ys with
    | nil => simp at hlen
    | cons c ys =>
      obtain rfl : b = c := by
        have htick := h 2
        rwa [getD_packed_cons_two, getD_packed_cons_two, Bool.not_inj_iff] at htick
      have htail : ∀ (zs : List Bool) i, (packed (b :: zs)).getD ((pack b).length + i) false = (packed zs).getD i false :=
        fun zs i => by
          rw [packed_cons, List.getD_append_right _ _ _ _ (Nat.le_add_right _ _), Nat.add_sub_cancel_left]
      rw [ih (by simpa using hlen) fun i => by rw [← htail, h, htail]]

/-- Frames with the same levels have contents with the same levels, so the same packed payload. -/
theorem build_injective {xs ys : List Bool} (hx : xs.length = 32) (hy : ys.length = 32)
    (h : build 8 xs = build 8 ys) : xs = ys := by
  have hcontent : ∀ i, (content 8 xs).getD i false = (content 8 ys).getD i false := fun i => by
    by_cases hi : i < 192
    · rw [← level_build 8 xs hi, h, level_build 8 ys hi]
    · have hlx := length_content_frame_le hx
      have hly := length_content_frame_le hy
      rw [List.getD_eq_default _ _ (by omega), List.getD_eq_default _ _ (by omega)]
  have hbehind : ∀ (zs : List Bool) i, (content 8 zs).getD (24 + i) false = (packed zs).getD i false := fun zs i => by
    rw [content_eq, ← List.append_assoc, List.getD_append_right _ _ _ _ (by simp)]
    simp
  exact packed_injective (hx.trans hy.symm) fun i => by rw [← hbehind, hcontent, hbehind]

theorem bitsRaw_injective {v w : Word} (h : bitsRaw v = bitsRaw w) : v = w := by
  rw [bitsRaw_eq, bitsRaw_eq, List.reverse_inj] at h
  exact bitList_injective h

theorem bitsExt_injective {a a' : BitVec 16} {c c' : Byte} (h : bitsExt a c = bitsExt a' c') : a = a' ∧ c = c' := by
  rw [bitsExt_eq, bitsExt_eq] at h
  have hbytes := List.append_inj_left h (by simp [length_bitList])
  obtain ⟨ha, hc⟩ := List.append_inj hbytes (by simp [length_bitList])
  exact ⟨bitList_injective ha, bitList_injective hc⟩

theorem bitsStd_injective {a a' c c' : Byte} (h : bitsStd a c = bitsStd a' c') : a = a' ∧ c = c' := by
  rw [bitsStd_eq, bitsStd_eq] at h
  obtain ⟨ha, hc⟩ := bitsExt_injective h
  have hbytes := congrArg bitList ha
  rw [bitList_append, bitList_append] at hbytes
  exact ⟨bitList_injective (List.append_inj_left hbytes (by simp [length_bitList])), hc⟩

/-- A frame has 49 marks and the repeat code 17. -/
theorem build_ne_rs {bits : List Bool} (h : bits.length = 32) : build 8 bits ≠ rs := fun heq => by
  have hmarks := popcount_frame h
  rw [heq, popcount_rs] at hmarks
  exact absurd hmarks (by decide)

/-! ### The obligations -/

/-- Settles O37: a content is as long as its payload's 1 bits make it; a byte and its complement have 8 between them. -/
theorem contentLengths : Obligations.ContentLengths := by
  refine ⟨fun a c => ?_, fun a c => ?_, fun v => ?_, by decide⟩
  · rw [length_content_frame (length_bitsStd a c), countP_bitsStd]
  · have hones := popcount_le a
    rw [length_content_frame (length_bitsExt a c), countP_bitsExt]
    omega
  · have hones := popcount_le v
    rw [length_content_frame (length_bitsRaw v), countP_bitsRaw]
    omega

/-- Settles O38: the marks of the content, of which no level is cut off. -/
theorem markPositions : Obligations.MarkPositions := by
  intro bits hbits m i hi
  have hm : ∀ j, 16 + 8 + markOffset bits j = m j := fun j => (Nat.add_assoc 24 _ _).symm
  simp only [level_build 8 bits hi, getD_content, hbits, hm]

/-- Settles O39: the content has 17 marks and one for each payload bit, begins with the leader mark, and leaves room for a
space at the end. -/
theorem markCounts : Obligations.MarkCounts :=
  ⟨fun _ => popcount_frame, popcount_rs,
    fun _ h => ⟨level_last_of_validSignal h, fun _ => level_leaderMark_of_validSignal h⟩⟩

/-- Settles O40: equivalent operands give one payload. -/
theorem encoderEquivalence : Obligations.EncoderEquivalence :=
  ⟨fun a c => ⟨by rw [bitsRaw_rawOfStd], by rw [bitsStd_eq], rawOfStd_eq a c⟩, fun a c => by rw [bitsRaw_rawOfExt]⟩

/-- Settles O41: a frame determines its payload, and the payload its operands; the repeat code has too few marks. -/
theorem encodersAreInjective : Obligations.EncodersAreInjective :=
  ⟨fun _ _ => build_injective,
    fun v w h => bitsRaw_injective (build_injective (length_bitsRaw v) (length_bitsRaw w) h),
    fun a c a' c' h => bitsStd_injective (build_injective (length_bitsStd a c) (length_bitsStd a' c') h),
    fun a a' c c' h => bitsExt_injective (build_injective (length_bitsExt a c) (length_bitsExt a' c') h),
    fun _ => build_ne_rs⟩

set_option maxRecDepth 2000 in
/-- Settles O36: each golden frame is built and cut into its words, a closed computation. -/
theorem goldenFrames : Obligations.GoldenFrames := by
  refine ⟨?_, ?_, ?_, ?_⟩
  all_goals decide

end Sys2Proof.Machine
end

/-! ## Proofs: the invariants of every step (10_state.md R37, R38, R45; 41_transmitter.md R162) -/

section

namespace Sys2Proof.Machine

/-! ### The last level of a block -/

/-- The last level of a block is a space, whatever the phase (40_signal_construction.md R122). -/
theorem currentLevel_last {s : State} (hfb : ValidSignal s.fb) (hidx : s.idx = 191) : currentLevel s = false := by
  rw [currentLevel_eq_ite, hidx]
  split
  · exact level_last_of_validSignal hfb
  · exact level_last_of_validSignal validSignal_rs

/-! ### What one edge leaves, by what the host's access is -/

theorem runEdge_frame_of_idle {s : State} (sig : Signal) (rd : Word) (hb : s.busy = false) :
    runEdge (.frame sig) rd s = { s with fb := sig, fbv := true, stb := false, rdata := rd } := by
  rw [runEdge_of_not_clear rfl, txStep_of_idle hb]
  rfl

theorem runEdge_start_of_idle {s : State} (mode : Mode) (blocks : Nat) (rem0 : Count) (rd : Word)
    (hb : s.busy = false) :
    runEdge (.start mode blocks rem0) rd s = startPlayback mode blocks rem0 { s with stb := false, rdata := rd } := by
  rw [runEdge_of_not_clear rfl, txStep_of_idle hb]
  by_cases h : blocks = 0 <;> simp [hostWrites, startPlayback, h]

/-- Everything an edge without reset can do: encode, start, or the transmitter's step with DATA, ERR and `rdata` laid over
it, and ABORT_REQ set in a playback that goes on (70_reset_and_hazards.md R244). -/
theorem runEdge_cases {s : State} {a : HostAction} (ha : Admitted s a) (rd : Word) :
    (s.busy = false ∧ ∃ sig, a = .frame sig ∧ ValidSignal sig ∧
      runEdge a rd s = { s with fb := sig, fbv := true, stb := false, rdata := rd }) ∨
    (s.busy = false ∧ s.fbv = true ∧ s.tbFault = false ∧ ∃ mode blocks rem0, a = .start mode blocks rem0 ∧
      (blocks ≠ 0 → rem0.toNat + 1 = blocks) ∧
      runEdge a rd s = startPlayback mode blocks rem0 { s with stb := false, rdata := rd }) ∨
    ∃ d e r, (r = true → (txStep s).busy = true) ∧
      runEdge a rd s = { txStep s with data := d, err := e, rdata := rd, abortReq := (txStep s).abortReq || r } := by
  by_cases hframe : ∃ sig, a = .frame sig
  · obtain ⟨sig, rfl⟩ := hframe
    exact .inl ⟨ha.1, sig, rfl, ha.2, runEdge_frame_of_idle sig rd ha.1⟩
  by_cases hstart : ∃ mode blocks rem0, a = .start mode blocks rem0
  · obtain ⟨mode, blocks, rem0, rfl⟩ := hstart
    obtain ⟨hb, hv, hf, hrem⟩ := ha
    exact .inr (.inl ⟨hb, hv, hf, mode, blocks, rem0, rfl, hrem, runEdge_start_of_idle _ _ _ _ hb⟩)
  · obtain ⟨d, e, h⟩ := exists_runEdge_eq (by simpa using hframe) (by simpa using hstart) rd s
    refine .inr (.inr ⟨d, e, _, fun hr => ?_, h⟩)
    rw [Bool.and_eq_true, Bool.and_eq_true] at hr
    exact hr.1.2

/-! ### Induction over a step -/

/-- `P` is kept by everything a step is made of: sampling the environment, reset, an encode, a start, what the host's
access lays over the transmitter's step, and that step itself, for which `I` may be assumed. -/
structure KeptBySteps (I P : State → Prop) : Prop where
  env : ∀ (s : State) (b : Bool) (l : List Event), P s → P { s with tbFault := b, inputs := l }
  reset : ∀ s : State, P s → P (holdReset s)
  frame : ∀ (s : State) (sig : Signal) (rd : Word), s.busy = false → ValidSignal sig → P s →
    P { s with fb := sig, fbv := true, stb := false, rdata := rd }
  start : ∀ (s : State) (mode : Mode) (blocks : Nat) (rem0 : Count) (rd : Word), s.busy = false → s.fbv = true →
    (blocks ≠ 0 → rem0.toNat + 1 = blocks) → P s →
    P (startPlayback mode blocks rem0 { s with stb := false, rdata := rd })
  host : ∀ (s : State) (d rd : Word) (e : BitVec 5) (r : Bool), (r = true → s.busy = true) → P s →
    P { s with data := d, err := e, rdata := rd, abortReq := s.abortReq || r }
  tx : ∀ s : State, I s → P s → P (txStep s)

theorem KeptBySteps.edge {I P : State → Prop} (hk : KeptBySteps I P) {s : State} {a : HostAction} (rd : Word)
    (ha : Admitted s a) (hI : I s) (hP : P s) : P (runEdge a rd s) := by
  rcases runEdge_cases ha rd with ⟨hb, sig, _, hsig, h⟩ | ⟨hb, hv, _, mode, blocks, rem0, _, hrem, h⟩ | ⟨d, e, r, hr, h⟩
  · rw [h]; exact hk.frame s sig rd hb hsig hP
  · rw [h]; exact hk.start s mode blocks rem0 rd hb hv hrem hP
  · rw [h]; exact hk.host _ d rd e r hr (hk.tx s hI hP)

/-- What every part of a step keeps, the step keeps. -/
theorem KeptBySteps.step {I P : State → Prop} (hk : KeptBySteps I P)
    (hIenv : ∀ (s : State) (b : Bool) (l : List Event), I s → I { s with tbFault := b, inputs := l }) {s t : State}
    (hI : I s) (hP : P s) (h : step s = .next t) : P t := by
  rcases step_cases h with ⟨_, rfl⟩ | ⟨b, l, ⟨_, rfl⟩ | ⟨a, rd, ha, rfl⟩⟩
  · exact hP
  · exact hk.reset _ (hk.env s b l hP)
  · exact hk.edge rd ha.admitted (hIenv s b l hI) (hk.env s b l hP)

/-! ### The six invariants of R45 -/

theorem inv_of_idle {s : State} (hb : s.busy = false) (hp : s.phase = .idle) (hi : s.idx = 0) (hr : s.rem = 0)
    (ht : s.tcnt = 0) (ha : s.abortReq = false) (hfb : s.fbv = true → ValidSignal s.fb) (htc : 1 ≤ s.tickCycles) :
    Inv s where
  busy_iff := by simp [hb, hp]
  idle_clear _ := ⟨ht, hi, hr, ha⟩
  busy_fbv h := by simp [hb] at h
  phase_mode h := by simp [hp] at h
  idx_le := by rw [hi]; decide
  tcnt_le := by omega
  fb_valid := hfb
  tick_pos := htc

theorem inv_of_playing {s : State} (hb : s.busy = true) (hp : s.phase ≠ .idle)
    (hm : s.phase = .repeatCode → s.mode = .repeatCode) (hi : s.idx ≤ 191) (ht : s.tcnt ≤ s.tickCycles - 1)
    (hv : s.fbv = true) (hfb : ValidSignal s.fb) (htc : 1 ≤ s.tickCycles) : Inv s where
  busy_iff := by simp [hb, hp]
  idle_clear h := by simp [hb] at h
  busy_fbv _ := hv
  phase_mode := hm
  idx_le := hi
  tcnt_le := ht
  fb_valid _ := hfb
  tick_pos := htc

theorem inv_afterReset {tc : Nat} (htc : 1 ≤ tc) : Inv (State.afterReset tc) :=
  inv_of_idle rfl rfl rfl rfl rfl rfl (fun h => nomatch h) htc

theorem Inv.phase_ne_idle {s : State} (h : Inv s) (hb : s.busy = true) : s.phase ≠ .idle := fun hp => by
  simp [h.busy_iff.mpr hp] at hb

theorem Inv.fb_valid_of_busy {s : State} (h : Inv s) (hb : s.busy = true) : ValidSignal s.fb :=
  h.fb_valid (h.busy_fbv hb)

/-- Row by row of R158: a row that ends the playback leaves an idle transmitter, and every other row a playing one. -/
theorem inv_txStep {s : State} (h : Inv s) : Inv (txStep s) := by
  rcases txStep_cases s with ⟨_, hs⟩ | ⟨_, _, hs⟩ | ⟨hb, _, ht, hs⟩ | ⟨_, _, _, _, hs⟩ | ⟨hb, _, _, _, hi, hs⟩ |
    ⟨_, _, _, ha, _, hr, hs⟩ | ⟨hb, _, _, _, _, _, hs⟩
  · rw [hs]; exact { h with }
  · rw [hs]; exact inv_of_idle rfl rfl rfl rfl rfl rfl h.fb_valid h.tick_pos
  · have hle := h.tcnt_le
    rw [hs]
    exact inv_of_playing hb (h.phase_ne_idle hb) h.phase_mode h.idx_le (Nat.lt_of_le_of_ne hle ht) (h.busy_fbv hb)
      (h.fb_valid_of_busy hb) h.tick_pos
  · rw [hs]; exact inv_of_idle rfl rfl rfl rfl rfl rfl h.fb_valid h.tick_pos
  · have hnext : s.idx + 1 ≤ 191 := by bv_omega
    rw [hs]
    exact inv_of_playing hb (h.phase_ne_idle hb) h.phase_mode hnext (Nat.zero_le _) (h.busy_fbv hb)
      (h.fb_valid_of_busy hb) h.tick_pos
  · rw [hs]; exact inv_of_idle rfl rfl rfl hr rfl ha h.fb_valid h.tick_pos
  · rw [hs]
    refine inv_of_playing hb ?_ ?_ (by simp) (Nat.zero_le _) (h.busy_fbv hb) (h.fb_valid_of_busy hb) h.tick_pos
    · dsimp only; split <;> simp
    · dsimp only; split <;> simp [*]

theorem inv_startPlayback {s : State} {mode : Mode} {blocks : Nat} {rem0 : Count} (h : Inv s) (hb : s.busy = false)
    (hv : s.fbv = true) : Inv (startPlayback mode blocks rem0 s) := by
  obtain ⟨ht, hi, hr, _⟩ := h.idle_clear hb
  unfold startPlayback
  split
  · exact inv_of_idle hb (h.busy_iff.mp hb) hi hr ht rfl h.fb_valid h.tick_pos
  · exact inv_of_playing rfl (by simp) (by simp) (by simp) (Nat.zero_le _) hv (h.fb_valid hv) h.tick_pos

theorem Inv.setEnv (s : State) (b : Bool) (l : List Event) (h : Inv s) : Inv { s with tbFault := b, inputs := l } :=
  { h with }

theorem inv_keptBySteps : KeptBySteps (fun _ => True) Inv where
  env := Inv.setEnv
  reset _ h := inv_of_idle rfl rfl rfl rfl rfl rfl (fun h => nomatch h) h.tick_pos
  frame _ _ _ hb hsig h := { h with busy_fbv := fun _ => rfl, fb_valid := fun _ => hsig }
  start _ _ _ _ _ hb hv _ h := inv_startPlayback { h with } hb hv
  host s _ _ _ r hr h := { h with
    idle_clear := fun hb => by
      have hno : r = false := Bool.eq_false_iff.mpr fun hc => by simp [hr hc] at hb
      simpa [hno] using h.idle_clear hb }
  tx _ _ := inv_txStep

/-! ### `ir_out`, SINKCNT and DONE -/

theorem outLowWhenIdle_txStep {s : State} (hinv : Inv s) (h : OutLowWhenIdle s) : OutLowWhenIdle (txStep s) := by
  rcases txStep_cases s with ⟨_, hs⟩ | ⟨_, _, hs⟩ | ⟨hb, _, _, hs⟩ | ⟨_, _, _, _, hs⟩ | ⟨hb, _, _, _, _, hs⟩ |
    ⟨hb, _, _, _, hi, _, hs⟩ | ⟨hb, _, _, _, _, _, hs⟩ <;> rw [hs]
  · exact h
  · exact fun _ => rfl
  · exact fun hidle => by simp [hb] at hidle
  · exact fun _ => rfl
  · exact fun hidle => by simp [hb] at hidle
  · have hlast : s.idx = 191 := by have := hinv.idx_le; bv_omega
    exact fun _ => currentLevel_last (hinv.fb_valid_of_busy hb) hlast
  · exact fun hidle => by simp [hb] at hidle

theorem outLowWhenIdle_keptBySteps : KeptBySteps Inv OutLowWhenIdle where
  env _ _ _ h := h
  reset _ _ _ := rfl
  frame _ _ _ _ _ h := h
  start s mode blocks rem0 rd hb _ _ h := fun _ => by simpa using h hb
  host _ _ _ _ _ _ h := h
  tx _ := outLowWhenIdle_txStep

theorem sinkBounded_of_idle {s : State} (hb : s.busy = false) : SinkBounded s ↔ s.sinkcnt.toNat ≤ 192 * 65536 := by
  simp [SinkBounded, hb]

theorem sinkBounded_of_busy {s : State} (hb : s.busy = true) :
    SinkBounded s ↔ s.sinkcnt.toNat + (192 * s.rem.toNat + (192 - s.idx.toNat)) ≤ 192 * 65536 := by
  simp [SinkBounded, hb]

/-- A delivery moves one level from those to come to those made; an abort or a fault drops those to come. -/
theorem sinkBounded_txStep {s : State} (hinv : Inv s) (h : SinkBounded s) : SinkBounded (txStep s) := by
  have hidx : s.idx.toNat ≤ 191 := hinv.idx_le
  rcases (Bool.eq_false_or_eq_true s.busy).symm with hb | hb
  · rw [txStep_of_idle hb]
    exact h
  rw [sinkBounded_of_busy hb] at h
  have hdropped : s.sinkcnt.toNat ≤ 192 * 65536 := by omega
  rcases txStep_cases s with ⟨hidle, _⟩ | ⟨_, _, hs⟩ | ⟨_, _, _, hs⟩ | ⟨_, _, _, _, hs⟩ | ⟨_, _, _, _, hi, hs⟩ |
    ⟨_, _, _, _, hi, _, hs⟩ | ⟨_, _, _, _, hi, hr, hs⟩
  · simp [hb] at hidle
  · rw [hs]
    exact (sinkBounded_of_idle rfl).mpr hdropped
  · rw [hs]
    exact (sinkBounded_of_busy hb).mpr h
  · rw [hs]
    exact (sinkBounded_of_idle rfl).mpr hdropped
  · rw [hs]
    refine Iff.mpr (sinkBounded_of_busy hb) ?_
    simp only [deliver_sinkcnt, deliver_rem]
    bv_omega
  · rw [hs]
    refine (sinkBounded_of_idle rfl).mpr ?_
    simp only [deliver_sinkcnt]
    bv_omega
  · rw [hs]
    refine Iff.mpr (sinkBounded_of_busy hb) ?_
    simp only [deliver_sinkcnt]
    bv_omega

/-- The longest playback is 1 + 65535 blocks of 192 levels. -/
theorem sinkBounded_startPlayback {s : State} {mode : Mode} {blocks : Nat} {rem0 : Count} (hb : s.busy = false) :
    SinkBounded (startPlayback mode blocks rem0 s) := by
  have hzero : (0 : Word).toNat ≤ 192 * 65536 := by decide
  unfold startPlayback
  split
  · exact Iff.mpr (sinkBounded_of_idle hb) hzero
  · have hrem : rem0.toNat ≤ 65535 := Nat.le_of_lt_succ rem0.isLt
    rw [sinkBounded_of_busy rfl]
    simp only [BitVec.ofNat_eq_ofNat, BitVec.toNat_ofNat]
    omega

theorem sinkBounded_keptBySteps : KeptBySteps Inv SinkBounded where
  env _ _ _ h := h
  reset _ _ := (sinkBounded_of_idle rfl).mpr (Nat.zero_le _)
  frame _ _ _ _ _ h := h
  start _ _ _ _ _ hb _ _ _ := sinkBounded_startPlayback hb
  host _ _ _ _ _ _ h := h
  tx _ := sinkBounded_txStep

theorem doneClearWhileBusy_txStep {s : State} (h : DoneClearWhileBusy s) : DoneClearWhileBusy (txStep s) := by
  rcases txStep_cases s with ⟨_, hs⟩ | ⟨_, _, hs⟩ | ⟨_, _, _, hs⟩ | ⟨_, _, _, _, hs⟩ | ⟨_, _, _, _, _, hs⟩ |
    ⟨_, _, _, _, _, _, hs⟩ | ⟨_, _, _, _, _, _, hs⟩ <;> rw [hs]
  · exact h
  · exact fun hb => nomatch hb
  · exact h
  · exact fun hb => nomatch hb
  · exact h
  · exact fun hb => nomatch hb
  · exact h

theorem doneClearWhileBusy_startPlayback {s : State} {mode : Mode} {blocks : Nat} {rem0 : Count}
    (hb : s.busy = false) : DoneClearWhileBusy (startPlayback mode blocks rem0 s) := by
  unfold startPlayback
  split
  · exact fun hbusy => by simp [hb] at hbusy
  · exact fun _ => rfl

theorem doneClearWhileBusy_keptBySteps : KeptBySteps (fun _ => True) DoneClearWhileBusy where
  env _ _ _ h := h
  reset _ _ hb := nomatch hb
  frame _ _ _ _ _ h := h
  start _ _ _ _ _ hb _ _ _ := doneClearWhileBusy_startPlayback hb
  host _ _ _ _ _ _ h := h
  tx _ _ := doneClearWhileBusy_txStep

/-! ### The obligations -/

/-- Settles O19: every part of a step keeps the six invariants; the transmitter's rows leave an idle or a playing state. -/
theorem stepKeepsInvariants : Obligations.StepKeepsInvariants := fun _ _ =>
  inv_keptBySteps.step (fun _ _ _ _ => trivial) trivial

/-- Settles O20: a playback ends with OUT <- 0, or with the last level of a valid Signal, which is a space. -/
theorem stepKeepsIdleOutputLow : Obligations.StepKeepsIdleOutputLow := fun _ _ =>
  outLowWhenIdle_keptBySteps.step @Inv.setEnv

/-- Settles O21: each part of a step keeps the sum of the deliveries made and to come, or lowers it. -/
theorem stepKeepsSinkBound : Obligations.StepKeepsSinkBound := fun _ _ => sinkBounded_keptBySteps.step @Inv.setEnv

/-- Settles O22: a start clears DONE, and the one row that sets it clears BUSY. -/
theorem stepKeepsDoneClear : Obligations.StepKeepsDoneClear := fun _ _ =>
  doneClearWhileBusy_keptBySteps.step (fun _ _ _ _ => trivial) trivial

/-- Settles O18: the reset state is idle with everything clear. -/
theorem resetMeetsInvariants : Obligations.ResetMeetsInvariants := fun _ htc =>
  ⟨inv_afterReset htc, fun _ => rfl, (sinkBounded_of_idle rfl).mpr (Nat.zero_le _), fun hb => nomatch hb⟩

end Sys2Proof.Machine
end

/-! ## Proofs: what changes FB, MODE, DATA, ERR and BUSY (10_state.md section 3, 41_transmitter.md R158) -/

section

namespace Sys2Proof.Machine

/-! ### Where the action of an edge comes from -/

/-- The mode in which a transmit command starts its playback (41_transmitter.md section 6). -/
def StartsIn (i : Instr) (mode : Mode) : Prop :=
  (∃ c, i = .txOnce c ∧ mode = .once) ∨ (∃ n, i = .txTimes n ∧ mode = .times) ∨
    ∃ n, i = .txRepeat n ∧ mode = .repeatCode

theorem StartsIn.isTransmit {i : Instr} {mode : Mode} (h : StartsIn i mode) : isTransmit i = true := by
  rcases h with ⟨_, rfl, _⟩ | ⟨_, rfl, _⟩ | ⟨_, rfl, _⟩ <;> rfl

theorem encodeAction_cases (sig : Signal) (s : State) :
    encodeAction sig s = .raise .reject ∨ encodeAction sig s = .frame sig := by
  unfold encodeAction
  split
  · exact .inl rfl
  · exact .inr rfl

theorem transmitAction_cases (mode : Mode) (blocks : Nat) (rem0 : Count) (s : State) :
    (∃ e, transmitAction mode blocks rem0 s = .raise e) ∨
      transmitAction mode blocks rem0 s = .start mode blocks rem0 := by
  unfold transmitAction
  repeat' split
  · exact .inl ⟨_, rfl⟩
  · exact .inl ⟨_, rfl⟩
  · exact .inl ⟨_, rfl⟩
  · exact .inr rfl

/-- Everything a command can ask for: nothing, an abort, an error, a frame from an encoder, or a start in its mode from a
transmit command. -/
theorem commandAction_cases (i : Instr) (s : State) :
    commandAction i s = .nothing ∨ commandAction i s = .abort ∨ (∃ e, commandAction i s = .raise e) ∨
      (isEncoder i = true ∧ ∃ sig, commandAction i s = .frame sig) ∨
      ∃ mode blocks rem0, StartsIn i mode ∧ commandAction i s = .start mode blocks rem0 := by
  have hencode : ∀ sig, isEncoder i = true → commandAction i s = encodeAction sig s →
      (∃ e, commandAction i s = .raise e) ∨ (isEncoder i = true ∧ ∃ sig, commandAction i s = .frame sig) :=
    fun sig hi h => (encodeAction_cases sig s).imp (fun hr => ⟨_, h.trans hr⟩) fun hf => ⟨hi, _, h.trans hf⟩
  have htransmit : ∀ mode blocks rem0, StartsIn i mode → commandAction i s = transmitAction mode blocks rem0 s →
      (∃ e, commandAction i s = .raise e) ∨
        ∃ mode blocks rem0, StartsIn i mode ∧ commandAction i s = .start mode blocks rem0 :=
    fun mode blocks rem0 hi h => (transmitAction_cases mode blocks rem0 s).imp (fun ⟨e, hr⟩ => ⟨e, h.trans hr⟩)
      fun hst => ⟨_, _, _, hi, h.trans hst⟩
  cases i with
  | nop _ => exact .inl rfl
  | abort _ => exact .inr (.inl rfl)
  | encStd _ | encExt _ | encRaw _ | encRep _ => exact .inr (.inr ((hencode _ rfl rfl).imp_right .inl))
  | txOnce c => exact .inr (.inr ((htransmit _ _ _ (.inl ⟨c, rfl, rfl⟩) rfl).imp_right .inr))
  | txTimes n => exact .inr (.inr ((htransmit _ _ _ (.inr (.inl ⟨n, rfl, rfl⟩)) rfl).imp_right .inr))
  | txRepeat n => exact .inr (.inr ((htransmit _ _ _ (.inr (.inr ⟨n, rfl, rfl⟩)) rfl).imp_right .inr))

/-- Everything an access can ask for, with the host's write it comes from. -/
theorem ActionFrom.cases {s e : State} {a : HostAction} (h : ActionFrom s e a) :
    a = .nothing ∨ a = .abort ∨ (∃ c, a = .raise c) ∨
      (∃ i sig, issuesNext s i ∧ isEncoder i = true ∧ a = .frame sig) ∨
      (∃ i mode blocks rem0, issuesNext s i ∧ StartsIn i mode ∧ a = .start mode blocks rem0) ∨
      (∃ p rest, writesNext s p rest ∧ wordIndex p.addr = 1 ∧ a = .writeData p.wdata) ∨
      ∃ p rest, writesNext s p rest ∧ wordIndex p.addr = 3 ∧ a = .clearErr (p.wdata.extractLsb' 0 5) := by
  rcases h with rfl | ⟨p, rest, hw, _, rfl⟩
  · exact .inl rfl
  unfold portAction
  split
  · next haddr =>
    split
    · next i hd =>
      have hissue : issuesNext s i := ⟨p, rest, hw, haddr, hd⟩
      rcases commandAction_cases i e with h | h | h | ⟨hi, sig, h⟩ | ⟨mode, blocks, rem0, hi, h⟩
      · exact .inl h
      · exact .inr (.inl h)
      · exact .inr (.inr (.inl h))
      · exact .inr (.inr (.inr (.inl ⟨i, sig, hissue, hi, h⟩)))
      · exact .inr (.inr (.inr (.inr (.inl ⟨i, mode, blocks, rem0, hissue, hi, h⟩))))
    · exact .inr (.inr (.inl ⟨_, rfl⟩))
  · next haddr => exact .inr (.inr (.inr (.inr (.inr (.inl ⟨p, rest, hw, haddr, rfl⟩)))))
  · next haddr => exact .inr (.inr (.inr (.inr (.inr (.inr ⟨p, rest, hw, haddr, rfl⟩)))))
  · exact .inl rfl

theorem ActionFrom.issues_encoder {s e : State} {sig : Signal} (h : ActionFrom s e (.frame sig)) :
    ∃ i, issuesNext s i ∧ isEncoder i = true := by
  simpa using h.cases

theorem ActionFrom.issues_transmit {s e : State} {mode : Mode} {blocks : Nat} {rem0 : Count}
    (h : ActionFrom s e (.start mode blocks rem0)) : ∃ i, issuesNext s i ∧ StartsIn i mode := by
  simpa using h.cases

theorem ActionFrom.writes_data {s e : State} {w : Word} (h : ActionFrom s e (.writeData w)) :
    ∃ p rest, writesNext s p rest ∧ wordIndex p.addr = 1 ∧ w = p.wdata := by
  simpa using h.cases

theorem ActionFrom.writes_err {s e : State} {m : BitVec 5} (h : ActionFrom s e (.clearErr m)) :
    ∃ p rest, writesNext s p rest ∧ wordIndex p.addr = 3 ∧ m = p.wdata.extractLsb' 0 5 := by
  simpa using h.cases

/-- A step that does not reset the block stands still, or is one edge of an access, on the state it started from but for
the model's own fields. -/
theorem step_cases_of_not_reset {s t : State} (h : step s = .next t) (hr : ¬ resetsNext s) :
    t = s ∨ ∃ b l a rd, ActionFrom s { s with tbFault := b, inputs := l } a ∧
      t = runEdge a rd { s with tbFault := b, inputs := l } := by
  rcases step_cases h with ⟨_, ht⟩ | ⟨b, l, ⟨hreset, _⟩ | ⟨a, rd, ha, ht⟩⟩
  · exact .inl ht
  · exact absurd hreset hr
  · exact .inr ⟨b, l, a, rd, ha, ht⟩

/-! ### What an edge does to one state element -/

theorem startPlayback_mode (mode : Mode) (blocks : Nat) (rem0 : Count) (s : State) :
    (startPlayback mode blocks rem0 s).mode = mode := by
  unfold startPlayback
  split <;> rfl

theorem runEdge_fb_cases {s : State} {a : HostAction} (ha : Admitted s a) (rd : Word) :
    (runEdge a rd s).fb = s.fb ∨ s.busy = false ∧ (runEdge a rd s).fbv = true ∧ ∃ sig, a = .frame sig := by
  rcases runEdge_cases ha rd with ⟨hb, sig, hsig, _, h⟩ | ⟨_, _, _, _, _, _, _, _, h⟩ | ⟨_, _, _, _, h⟩
  · exact .inr ⟨hb, by rw [h], sig, hsig⟩
  · exact .inl (by rw [h, startPlayback_fb])
  · exact .inl (by rw [h]; exact txStep_fb s)

theorem runEdge_mode_cases {s : State} {a : HostAction} (ha : Admitted s a) (rd : Word) :
    (runEdge a rd s).mode = s.mode ∨ s.busy = false ∧ s.fbv = true ∧ s.tbFault = false ∧
      ∃ blocks rem0, a = .start (runEdge a rd s).mode blocks rem0 := by
  rcases runEdge_cases ha rd with ⟨_, _, _, _, h⟩ | ⟨hb, hv, hf, mode, blocks, rem0, hstart, _, h⟩ | ⟨_, _, _, _, h⟩
  · exact .inl (by rw [h])
  · exact .inr ⟨hb, hv, hf, blocks, rem0, by rw [h, startPlayback_mode, hstart]⟩
  · exact .inl (by rw [h]; exact txStep_mode s)

theorem runEdge_data_cases (a : HostAction) (rd : Word) (s : State) :
    (runEdge a rd s).data = s.data ∨ a = .writeData (runEdge a rd s).data := by
  cases a with
  | writeData w => exact .inr rfl
  | nothing | clearErr _ | raise _ | frame _ | start _ _ _ | abort => exact .inl (by simp [runEdge, hostWrites])

/-- An ERR bit goes only where the access clears it. -/
theorem clearMask_of_err_cleared {s : State} {a : HostAction} {rd : Word} {k : Nat} (hs : s.err.getLsbD k = true)
    (ht : (runEdge a rd s).err.getLsbD k = false) : ∃ m, a = .clearErr m ∧ m.getLsbD k = true := by
  have hk : k < 5 := BitVec.lt_of_getLsbD hs
  have hmask : (clearMask a).getLsbD k = true := by
    rw [runEdge_err] at ht
    simp_all
  cases a with
  | clearErr m => exact ⟨m, rfl, hmask⟩
  | nothing | writeData _ | raise _ | frame _ | start _ _ _ | abort => simp [clearMask] at hmask

/-- BUSY rises only at an accepted start. -/
theorem start_of_busy_rises {s : State} {a : HostAction} {rd : Word} (ha : Admitted s a) (hs : s.busy = false)
    (ht : (runEdge a rd s).busy = true) :
    s.fbv = true ∧ s.tbFault = false ∧ ∃ mode blocks rem0, a = .start mode blocks rem0 := by
  rcases runEdge_cases ha rd with ⟨_, _, _, _, h⟩ | ⟨_, hv, hf, mode, blocks, rem0, hstart, _, _⟩ | ⟨_, _, _, _, h⟩
  · simp [h, hs] at ht
  · exact ⟨hv, hf, mode, blocks, rem0, hstart⟩
  · simp [h, hs, txStep_of_idle] at ht

/-- At an edge of a playback BUSY, the outputs, DONE and SINKCNT are the transmitter's alone. -/
theorem runEdge_transmitter_of_busy {s : State} {a : HostAction} (rd : Word) (ha : Admitted s a) (hs : s.busy = true) :
    (runEdge a rd s).busy = (txStep s).busy ∧ (runEdge a rd s).stb = (txStep s).stb ∧
      (runEdge a rd s).out = (txStep s).out ∧ (runEdge a rd s).done = (txStep s).done ∧
      (runEdge a rd s).sinkcnt = (txStep s).sinkcnt := by
  obtain ⟨hframe, hstart⟩ := ha.ne_frame_and_ne_start hs
  obtain ⟨d, e, h⟩ := exists_runEdge_eq hframe hstart rd s
  simp [h]

theorem getLsbD_runEdge_err {s : State} {k : Nat} (a : HostAction) (rd : Word) (h : (txRaised s).getLsbD k = true) :
    (runEdge a rd s).err.getLsbD k = true := by
  simp [runEdge_err, h]

theorem txRaised_of_abort {s : State} (hb : s.busy = true) (hf : s.tbFault = false) (ht : s.tcnt = s.tickCycles - 1)
    (ha : s.abortReq = true) : txRaised s = 0b01000 := by simp [txRaised, hb, hf, ht, ha]

/-- How a playback ends at an edge: with its last delivery, by an abort at a tick boundary, or by a time-base fault
(41_transmitter.md R146 to R148). -/
theorem busy_falls_cases {s : State} {a : HostAction} {rd : Word} (ha : Admitted s a) (hs : s.busy = true)
    (ht : (runEdge a rd s).busy = false) :
    let t := runEdge a rd s
    (s.tbFault = false ∧ s.tcnt = s.tickCycles - 1 ∧ s.abortReq = false ∧ ¬ s.idx < 191 ∧ s.rem = 0 ∧
      t.stb = true ∧ t.done = true ∧ t.sinkcnt = s.sinkcnt + 1) ∨
    (t.stb = false ∧ t.out = false ∧ t.done = s.done ∧ t.sinkcnt = s.sinkcnt ∧
      (s.tbFault = false ∧ s.tcnt = s.tickCycles - 1 ∧ s.abortReq = true ∧ t.err.getLsbD 3 = true ∨
        s.tbFault = true ∧ t.err.getLsbD 4 = true)) := by
  intro t
  have haborted : s.tbFault = false → s.tcnt = s.tickCycles - 1 → s.abortReq = true → t.err.getLsbD 3 = true :=
    fun hf htc hab => getLsbD_runEdge_err a rd (by rw [txRaised_of_abort hs hf htc hab]; rfl)
  have hfault : s.tbFault = true → t.err.getLsbD 4 = true := runEdge_err_timebase a rd hs
  obtain ⟨hbusy, hstb, hout, hdone, hcount⟩ := runEdge_transmitter_of_busy rd ha hs
  rw [hbusy] at ht
  rw [hstb, hout, hdone, hcount]
  rcases txStep_cases s with ⟨hb, _⟩ | ⟨_, hf, hrow⟩ | ⟨_, _, _, hrow⟩ | ⟨_, hf, htc, hab, hrow⟩ | ⟨_, _, _, _, _, hrow⟩ |
    ⟨_, hf, htc, hab, hi, hr, hrow⟩ | ⟨_, _, _, _, _, _, hrow⟩
  · simp [hs] at hb
  · rw [hrow]
    exact .inr ⟨rfl, rfl, rfl, rfl, .inr ⟨hf, hfault hf⟩⟩
  · simp [hrow, hs] at ht
  · rw [hrow]
    exact .inr ⟨rfl, rfl, rfl, rfl, .inl ⟨hf, htc, hab, haborted hf htc hab⟩⟩
  · simp [hrow, hs] at ht
  · rw [hrow]
    exact .inl ⟨hf, htc, hab, hi, hr, rfl, rfl, rfl⟩
  · simp [hrow, hs] at ht

/-! ### The obligations -/

/-- Settles O23: an edge changes FB only by a frame, which only an encoder's action is. -/
theorem onlyEncodersWriteFrame : Obligations.OnlyEncodersWriteFrame := by
  intro s t h hne hr
  rcases step_cases_of_not_reset h hr with rfl | ⟨b, l, a, rd, ha, rfl⟩
  · exact absurd rfl hne
  · rcases runEdge_fb_cases ha.admitted rd with hfb | ⟨hb, hv, sig, rfl⟩
    · exact absurd hfb hne
    · exact ⟨hb, hv, ha.issues_encoder⟩

/-- Settles O25: an edge changes MODE only by an accepted start, whose mode is its command's. -/
theorem onlyTransmitWritesMode : Obligations.OnlyTransmitWritesMode := by
  intro s t h hne hr
  rcases step_cases_of_not_reset h hr with rfl | ⟨b, l, a, rd, ha, rfl⟩
  · exact absurd rfl hne
  · rcases runEdge_mode_cases ha.admitted rd with hmode | ⟨hb, hv, hf, blocks, rem0, hstart⟩
    · exact absurd hmode hne
    · rw [hstart] at ha
      exact ⟨hb, hv, (runEdge_tbFault _ _ _).trans hf, ha.issues_transmit⟩

/-- Settles O26: an edge changes DATA only by a write to it. -/
theorem onlyDataWritesChangeData : Obligations.OnlyDataWritesChangeData := by
  intro s t h hne hr
  rcases step_cases_of_not_reset h hr with rfl | ⟨b, l, a, rd, ha, rfl⟩
  · exact absurd rfl hne
  · rcases runEdge_data_cases a rd { s with tbFault := b, inputs := l } with hdata | hwrite
    · exact absurd hdata hne
    · rw [hwrite] at ha
      exact ha.writes_data

/-- Settles O27: an edge clears an ERR bit only by a write of 1 to it. -/
theorem errorBitsAreSticky : Obligations.ErrorBitsAreSticky := by
  intro s t k h hset hclear hr
  rcases step_cases_of_not_reset h hr with rfl | ⟨b, l, a, rd, ha, rfl⟩
  · simp [hset] at hclear
  · obtain ⟨m, rfl, hm⟩ := clearMask_of_err_cleared (s := { s with tbFault := b, inputs := l }) hset hclear
    obtain ⟨p, rest, hw, haddr, rfl⟩ := ha.writes_err
    have hbit : p.wdata.getLsbD k = true := by simp_all
    exact ⟨p, rest, hw, haddr, hbit⟩

/-- Settles O29: an edge sets BUSY only by an accepted start, and clears it in the three rows that end a playback. -/
theorem whatStartsAndEndsBusy : Obligations.WhatStartsAndEndsBusy := by
  intro s t h hr
  rcases step_cases_of_not_reset h hr with rfl | ⟨b, l, a, rd, ha, rfl⟩
  · exact ⟨fun hs ht => by simp [hs] at ht, fun hs ht => by simp [hs] at ht⟩
  · rw [runEdge_tbFault]
    refine ⟨fun hs ht => ?_, busy_falls_cases ha.admitted⟩
    obtain ⟨hv, hf, mode, blocks, rem0, rfl⟩ := start_of_busy_rises ha.admitted hs ht
    obtain ⟨i, hi, hmode⟩ := ha.issues_transmit
    exact ⟨hv, hf, i, hi, hmode.isTransmit⟩

end Sys2Proof.Machine
end

/-! ## Proofs: steps, events and the register port (20_memory.md R60 to R65, 30_encoding.md R85, R92) -/

section

namespace Sys2Proof.Machine

/-! ### A CMD write runs its command -/

theorem issue_of_ok {w : Word} {i : Instr} (s : State) (h : decode w = .ok i) : issue w s = exec i s := by
  rw [issue, h]

theorem step_of_command {s : State} {p : Pins} {rest : List Event} {i : Instr} (hw : writesNext s p rest)
    (haddr : wordIndex p.addr = 0) (hd : decode p.wdata = .ok i) : step s = exec i (sampled s p rest) := by
  rw [step_of_write hw, writeReg_cmd _ haddr, issue_of_ok _ hd]

/-- The queued edge has the `tb_fault` the state holds, so taking it off the list gives the state back. -/
theorem step_withFetchWord {s : State} {w : Word} {i : Instr} (hd : decode w = .ok i) :
    step (s.withFetchWord 32 w.toNat) = exec i s := by
  have hw : writesNext (s.withFetchWord 32 w.toNat) (writePins (regOffset .cmd) w s.tbFault) s.inputs :=
    ⟨by rw [State.withFetchWord, tableWord_toNat]; rfl, rfl, rfl, rfl⟩
  have haddr : wordIndex (regOffset .cmd) = 0 := by decide
  exact step_of_command hw haddr hd

/-! ### Idle edges -/

theorem exists_clockEdge_of_idle {p : Pins} {s : State} (hr : p.rstN = true) (hw : p.we = false)
    (hb : s.busy = false) :
    ∃ rd, clockEdge p s = .next { s with tbFault := p.tbFault, stb := false, rdata := rd } := by
  have htx : txStep { s with tbFault := p.tbFault } = { s with tbFault := p.tbFault, stb := false } :=
    txStep_of_idle hb
  cases hre : p.re with
  | false => exact ⟨_, by rw [clockEdge_no_access s hr hw hre, htx]⟩
  | true => exact ⟨_, by rw [clockEdge_read s hr hw hre, htx]⟩

/-! ### When a step goes on -/

theorem exists_clockEdge_eq_next_iff (p : Pins) (s : State) :
    (∃ t, clockEdge p s = .next t) ↔ ¬ (p.rstN = true ∧ p.we = true ∧ p.re = true) := by
  cases hr : p.rstN with
  | false => simp [clockEdge_reset s hr]
  | true =>
    cases hw : p.we with
    | false =>
      cases hre : p.re with
      | false => simp [clockEdge_no_access s hr hw hre]
      | true => simp [clockEdge_read s hr hw hre]
    | true =>
      cases hre : p.re with
      | false => simp [clockEdge_write s hr hw hre, writeReg_eq]
      | true => simp [clockEdge, hr, hw, hre]

theorem clockEdge_violation {p : Pins} (s : State) (hr : p.rstN = true) (hw : p.we = true) (hre : p.re = true) :
    clockEdge p s = .refused .hostProtocolViolation := by simp [clockEdge, hr, hw, hre]

/-- A poll is a read of STATUS; the event stays while the read shows BUSY = 1 (30_encoding.md R92). -/
theorem step_of_poll {s : State} {rest : List Event} (h : s.inputs = .poll :: rest) :
    step s = clockEdge (readPins (regOffset .status) false)
      { s with inputs := if s.busy then s.inputs else rest } := by
  have hbusy : (statusWord s).getLsbD 0 = s.busy := getLsbD_statusWord s 0
  rcases Bool.eq_false_or_eq_true s.busy with hb | hb
  · have hstays : step s = clockEdge (readPins (regOffset .status) false) s := by
      simp only [step, takeEvent, h, hbusy, hb, if_true]
    rw [if_pos hb]
    exact hstays
  · simp only [step, takeEvent, h, hbusy, hb, Bool.false_eq_true, if_false]

theorem step_of_no_event {s : State} (h : s.inputs = []) : step s = clockEdge quietPins s := by
  rw [step, takeEvent, h]

theorem step_of_resetFalls {s : State} {rest : List Event} (h : s.inputs = .resetFalls :: rest) :
    step s = .next (holdReset { s with inputs := rest }) := by
  rw [step, takeEvent, h]

theorem exists_step_eq_next_iff (s : State) : (∃ t, step s = .next t) ↔
    ¬ ∃ p rest, s.inputs = .edge p :: rest ∧ p.rstN = true ∧ p.we = true ∧ p.re = true := by
  cases hi : s.inputs with
  | nil => simp [step_of_no_event hi, exists_clockEdge_eq_next_iff, quietPins]
  | cons e rest =>
    cases e with
    | edge p => simp [step_of_edge hi, exists_clockEdge_eq_next_iff]
    | poll => simp [step_of_poll hi, exists_clockEdge_eq_next_iff, readPins]
    | resetFalls => simp [step_of_resetFalls hi]
    | clockStops => simp [step_of_stopped hi]

/-! ### Runs -/

theorem run_zero (s : State) : core.run 0 s = .next s := rfl

theorem run_succ {s t : State} (k : Nat) (h : step s = .next t) : core.run (k + 1) s = core.run k t := by
  have hcore : core.step s = .next t := h
  simp only [Host.Core.run, hcore]

theorem run_of_stopped {s : State} {rest : List Event} (h : s.inputs = .clockStops :: rest) (k : Nat) :
    core.run k s = .next s := by
  induction k with
  | zero => exact run_zero s
  | succ k ih => rw [run_succ k (step_of_stopped h), ih]

/-! ### The low address bits -/

theorem toNat_and_fc (a : Offset) : (a &&& 0xFC).toNat = 4 * (a.toNat / 4) := by
  revert a
  decide

theorem wordIndex_and_fc (a : Offset) : wordIndex (a &&& 0xFC) = wordIndex a := by
  rw [wordIndex, wordIndex, toNat_and_fc]
  omega

/-- The port looks at an offset through its word number only (20_memory.md R65). -/
theorem readReg_congr {a b : Offset} (s : State) (h : wordIndex a = wordIndex b) : readReg s a = readReg s b := by
  rw [readReg, h, readReg]

theorem writeReg_congr {a b : Offset} (w : Word) (s : State) (h : wordIndex a = wordIndex b) :
    writeReg a w s = writeReg b w s := by
  rw [writeReg, h, writeReg]

/-! ### The obligations -/

/-- Settles O5: a CMD write edge issues its word, and issuing a command's word runs the command. -/
theorem stepRunsDecodedCommand : Obligations.StepRunsDecodedCommand :=
  ⟨fun _ _ _ _ => step_of_command, fun _ i => step_withFetchWord (decode_encode i)⟩

/-- Settles O9: the views are the elements themselves, the two numbers up to 32 bits; words 4 to 7 take no write. -/
theorem errorAndCounterViews : Obligations.ErrorAndCounterViews := by
  refine ⟨fun s => ⟨rfl, rfl, rfl, fun h => ?_, fun h => ?_⟩, fun s a w hlo hhi => ?_⟩
  · exact Nat.mod_eq_of_lt h
  · exact Nat.mod_eq_of_lt h
  · exact writeReg_ignored w (by omega) (by omega) (by omega)

/-- Settles O12: an offset and the offset with its low two bits cleared have one word number. -/
theorem lowAddressBitsIgnored : Obligations.LowAddressBitsIgnored := fun s a w =>
  ⟨readReg_congr s (wordIndex_and_fc a).symm, writeReg_congr w s (wordIndex_and_fc a).symm⟩

/-- Settles O13: reset comes before the violation. -/
theorem protocolViolationRefused : Obligations.ProtocolViolationRefused := by
  intro s p rest hi hw hre
  rw [step_of_edge hi]
  exact ⟨fun hr => clockEdge_violation _ hr hw hre, fun hr => clockEdge_reset _ hr⟩

/-- Settles O14: event by event, and only an edge can be refused. -/
theorem stepsGoOn : Obligations.StepsGoOn := exists_step_eq_next_iff

/-- Settles O15: each step leaves the state as it is, and so does every number of steps. -/
theorem stoppedClockIsStuck : Obligations.StoppedClockIsStuck := fun _ _ k h => run_of_stopped h k

/-- Settles O16: a poll is a read edge of STATUS, and edges leave the rest of the list alone. -/
theorem pollEndsWithBusy : Obligations.PollEndsWithBusy := by
  intro s rest h
  rw [step_of_poll h, clockEdge_read _ rfl rfl rfl]
  exact ⟨_, rfl, rfl, fun hb => by simp [hb], fun hb => by simp [hb]⟩

/-- Settles O28: TICK_CYCLES is kept by reset and by every edge. -/
theorem tickCyclesNeverChanges : Obligations.TickCyclesNeverChanges := by
  intro s t h
  rcases step_cases h with ⟨_, rfl⟩ | ⟨b, l, ⟨_, rfl⟩ | ⟨a, rd, _, rfl⟩⟩
  · rfl
  · exact holdReset_tickCycles _
  · exact runEdge_tickCycles a rd _

/-- Settles O30: an edge without a write is a read or no access, and the idle transmitter's step clears STB. -/
theorem idleEdgesChangeNothing : Obligations.IdleEdgesChangeNothing := by
  intro s p rest hi hr hw hb
  rw [step_of_edge hi]
  exact exists_clockEdge_of_idle (s := { s with inputs := rest }) hr hw hb

end Sys2Proof.Machine
end

/-! ## Proofs: the commands and their results (40_signal_construction.md section 2, 41_transmitter.md section 6) -/

section

namespace Sys2Proof.Machine

/-! ### The encoder commands -/

/-- An encoder's edge while idle: its Signal goes to FB, and nothing else changes but what an idle edge does. -/
theorem runEdge_encode_of_idle {s : State} (sig : Signal) (hb : s.busy = false) :
    runEdge (encodeAction sig s) 0 s = { s with fb := sig, fbv := true, stb := false, rdata := 0 } := by
  have haccept : encodeAction sig s = .frame sig := by simp [encodeAction, hb]
  rw [haccept, runEdge_frame_of_idle sig 0 hb]

theorem exec_encStd {s : State} (c : Count) (hb : s.busy = false) :
    exec (.encStd c) s = .next { s with
      fb := build 8 (bitsStd (stdAddress s.data) (stdCommand s.data)), fbv := true, stb := false, rdata := 0 } :=
  (exec_eq _ s).trans (congrArg _ (runEdge_encode_of_idle _ hb))

theorem exec_encExt {s : State} (c : Count) (hb : s.busy = false) :
    exec (.encExt c) s = .next { s with
      fb := build 8 (bitsExt (extAddress s.data) (extCommand s.data)), fbv := true, stb := false, rdata := 0 } :=
  (exec_eq _ s).trans (congrArg _ (runEdge_encode_of_idle _ hb))

theorem exec_encRaw {s : State} (c : Count) (hb : s.busy = false) :
    exec (.encRaw c) s = .next { s with fb := build 8 (bitsRaw s.data), fbv := true, stb := false, rdata := 0 } :=
  (exec_eq _ s).trans (congrArg _ (runEdge_encode_of_idle _ hb))

theorem exec_encRep {s : State} (c : Count) (hb : s.busy = false) :
    exec (.encRep c) s = .next { s with fb := rs, fbv := true, stb := false, rdata := 0 } :=
  (exec_eq _ s).trans (congrArg _ (runEdge_encode_of_idle _ hb))

/-- Words that agree on their low bits agree on every field within them. -/
theorem extractLsb'_congr {w start len n : Nat} {x y : BitVec w} (hfield : start + len ≤ n)
    (h : x.extractLsb' 0 n = y.extractLsb' 0 n) : x.extractLsb' start len = y.extractLsb' start len := by
  rw [← BitVec.extractLsb'_extractLsb'_of_le hfield, h, BitVec.extractLsb'_extractLsb'_of_le hfield]

/-! ### The transmit commands -/

/-- An accepted transmit command is its start action, laid over an idle edge (30_encoding.md R85). -/
theorem runEdge_transmit_of_accepted {s : State} (mode : Mode) (blocks : Nat) (rem0 : Count) (hb : s.busy = false)
    (hv : s.fbv = true) (hf : s.tbFault = false) :
    runEdge (transmitAction mode blocks rem0 s) 0 s =
      startPlayback mode blocks rem0 { s with stb := false, rdata := 0 } := by
  have haccept : transmitAction mode blocks rem0 s = .start mode blocks rem0 := by
    simp [transmitAction, hb, hv, hf]
  rw [haccept, runEdge_start_of_idle _ _ _ _ hb]

theorem startPlayback_of_blocks (mode : Mode) {blocks : Nat} (rem0 : Count) (s : State) (h : blocks ≠ 0) :
    startPlayback mode blocks rem0 s = { s with
      mode := mode, sinkcnt := 0, done := false, abortReq := false, busy := true, phase := .frame, idx := 0,
      rem := rem0, tcnt := 0 } := if_neg h

/-- What a transmit command leaves that starts a playback of at least one block. -/
theorem exec_transmit_of_accepted {s : State} {i : Instr} {mode : Mode} {blocks : Nat} {rem0 : Count}
    (hi : commandAction i s = transmitAction mode blocks rem0 s) (hblocks : blocks ≠ 0) (hb : s.busy = false)
    (hv : s.fbv = true) (hf : s.tbFault = false) :
    exec i s = .next { s with
      mode := mode, sinkcnt := 0, done := false, abortReq := false, busy := true, phase := .frame, idx := 0,
      rem := rem0, tcnt := 0, stb := false, rdata := 0 } := by
  rw [exec_eq, hi, runEdge_transmit_of_accepted _ _ _ hb hv hf, startPlayback_of_blocks _ _ _ hblocks]

/-- The empty playback: DONE at once (41_transmitter.md R154). -/
theorem exec_txTimes_zero {s : State} (hb : s.busy = false) (hv : s.fbv = true) (hf : s.tbFault = false) :
    exec (.txTimes 0) s = .next { s with
      mode := .times, sinkcnt := 0, done := true, abortReq := false, stb := false, rdata := 0 } := by
  have haction : commandAction (.txTimes 0) s = transmitAction .times 0 (0 - 1) s := rfl
  rw [exec_eq, haction, runEdge_transmit_of_accepted _ _ _ hb hv hf]
  rfl

/-! ### ABORT and NOP -/

theorem exec_nop (s : State) (c : Count) : exec (.nop c) s = .next { txStep s with rdata := 0 } :=
  (exec_eq _ s).trans (congrArg _ (runEdge_nothing 0 s))

/-- ABORT is the transmitter's step, with ABORT_REQ set where the playback goes on after it (41_transmitter.md R156). -/
theorem exec_abort (s : State) (c : Count) : exec (.abort c) s = .next { txStep s with
    abortReq := (txStep s).abortReq || (s.busy && (txStep s).busy), rdata := 0 } := by
  have haction : commandAction (.abort c) s = .abort := rfl
  rw [exec_eq, haction, runEdge_of_not_clear rfl, hostWrites, requestAbort_eq]

theorem exec_abort_of_playing {s : State} (c : Count) (hb : s.busy = true) (hgoes : ¬ playbackEnds s) :
    exec (.abort c) s = .next { txStep s with abortReq := true, rdata := 0 } := by
  have hbusy : (txStep s).busy = true := by
    rwa [← txStep_busy_eq_false_iff hb, Bool.not_eq_false] at hgoes
  rw [exec_abort, hb, hbusy, Bool.and_self, Bool.or_true]

theorem exec_abort_of_ended {s : State} (c : Count) (hbusy : (txStep s).busy = false) :
    exec (.abort c) s = .next { txStep s with rdata := 0 } := by
  rw [exec_abort, hbusy, Bool.and_false, Bool.or_false]

/-! ### The obligations -/

/-- Settles O31: an accepted frame, built from DATA[7:0] and DATA[15:8]. -/
theorem encStdResult : Obligations.EncStdResult := fun _ c => exec_encStd c

/-- Settles O32: an accepted frame, built from DATA[15:0] and DATA[23:16]. -/
theorem encExtResult : Obligations.EncExtResult := fun _ c => exec_encExt c

/-- Settles O33: an accepted frame, whose payload is all of DATA. -/
theorem encRawResult : Obligations.EncRawResult := fun _ c => exec_encRaw c

/-- Settles O34: an accepted frame, the constant RS. -/
theorem encRepResult : Obligations.EncRepResult := fun _ c => exec_encRep c

/-- Settles O43: the frame is built from the listed fields alone. -/
theorem encodersIgnoreOtherDataBits : Obligations.EncodersIgnoreOtherDataBits := by
  intro s s' c hb hb'
  refine ⟨fun h => ⟨_, _, exec_encStd c hb, exec_encStd c hb', ?_⟩,
    fun h => ⟨_, _, exec_encExt c hb, exec_encExt c hb', ?_⟩,
    fun h => ⟨_, _, exec_encRaw c hb, exec_encRaw c hb', ?_⟩, ⟨_, _, exec_encRep c hb, exec_encRep c hb', rfl⟩⟩
  · have haddress : stdAddress s.data = stdAddress s'.data := extractLsb'_congr (by decide) h
    have hcommand : stdCommand s.data = stdCommand s'.data := extractLsb'_congr (by decide) h
    rw [haddress, hcommand]
  · have haddress : extAddress s.data = extAddress s'.data := extractLsb'_congr (by decide) h
    have hcommand : extCommand s.data = extCommand s'.data := extractLsb'_congr (by decide) h
    rw [haddress, hcommand]
  · rw [h]

/-- Settles O46: one block, none after it. -/
theorem txOnceStarts : Obligations.TxOnceStarts := fun _ _ => exec_transmit_of_accepted rfl (by decide)

/-- Settles O47: n blocks, n − 1 after the first; and no block for n = 0. -/
theorem txTimesStarts : Obligations.TxTimesStarts := by
  refine fun s n hb hv hf => ⟨fun hn => ?_, fun hn => ?_⟩
  · have hblocks : n.toNat ≠ 0 := by simpa [← BitVec.toNat_inj] using hn
    exact exec_transmit_of_accepted rfl hblocks hb hv hf
  · rw [hn]
    exact exec_txTimes_zero hb hv hf

/-- Settles O48: the frame, and n repeat codes after it. -/
theorem txRepeatStarts : Obligations.TxRepeatStarts := fun _ _ => exec_transmit_of_accepted rfl (by omega)

/-- Settles O49: the request stands where BUSY survives the transmitter's step. -/
theorem abortRequests : Obligations.AbortRequests := by
  refine fun s c => ⟨exec_abort_of_playing c, fun hb hends => ?_, fun hb => ?_⟩
  · exact exec_abort_of_ended c ((txStep_busy_eq_false_iff hb).mpr hends)
  · have htx := txStep_of_idle hb
    rw [exec_abort_of_ended c (by rw [htx]; exact hb), htx]

/-- Settles O50: NOP asks for nothing, and the idle transmitter's step clears STB. -/
theorem nopIsTheTransmitterAlone : Obligations.NopIsTheTransmitterAlone :=
  fun s c => ⟨exec_nop s c, fun hb => by rw [exec_nop, txStep_of_idle hb]⟩

/-- Settles O51: the other commands' arms of `exec` take no COUNT. -/
theorem countIgnoredElsewhere : Obligations.CountIgnoredElsewhere :=
  fun _ _ _ => ⟨rfl, rfl, rfl, rfl, rfl, rfl, rfl⟩

end Sys2Proof.Machine
end

/-! ## Proofs: playbacks, level by level (41_transmitter.md R145, R152, R156, R160, R161) -/

section

namespace Sys2Proof.Machine

/-! ### Playback sequences as blocks -/

/-- `n` blocks of a Signal, one after the other (41_transmitter.md R152). -/
def blocksOf (n : Nat) (sig : Signal) : List Bool := (List.replicate n (levels sig)).flatten

theorem blocksOf_succ (n : Nat) (sig : Signal) : blocksOf (n + 1) sig = levels sig ++ blocksOf n sig := by
  rw [blocksOf, List.replicate_succ, List.flatten_cons, blocksOf]

theorem length_blocksOf (n : Nat) (sig : Signal) : (blocksOf n sig).length = 192 * n := by
  induction n with
  | zero => rfl
  | succ n ih =>
    rw [blocksOf_succ, List.length_append, length_levels, ih]
    omega

theorem getD_levels {k : Nat} (sig : Signal) (h : k < 192) : (levels sig).getD k false = level sig k := by
  rw [List.getD_eq_getElem?_getD, getElem?_levels sig h, Option.getD_some]

theorem getD_levels_append {k : Nat} (sig : Signal) (xs : List Bool) (h : k < 192) :
    (levels sig ++ xs).getD k false = level sig k := by
  rw [List.getD_append _ _ _ _ (by rwa [length_levels]), getD_levels sig h]

theorem getD_levels_append_right {k : Nat} (sig : Signal) (xs : List Bool) (h : 192 ≤ k) :
    (levels sig ++ xs).getD k false = xs.getD (k - 192) false := by
  rw [List.getD_append_right _ _ _ _ (by rwa [length_levels]), length_levels]

theorem getD_blocksOf {n k : Nat} (sig : Signal) (h : k < 192 * n) :
    (blocksOf n sig).getD k false = level sig (k % 192) := by
  induction n generalizing k with
  | zero => omega
  | succ n ih =>
    rw [blocksOf_succ]
    by_cases hk : k < 192
    · rw [getD_levels_append sig _ hk, Nat.mod_eq_of_lt hk]
    · have hmod : k % 192 = (k - 192) % 192 := Nat.mod_eq_sub_mod (by omega)
      rw [getD_levels_append_right sig _ (by omega), ih (by omega), hmod]

theorem playback_txTimes (fb : Signal) (n : Count) : playback fb (.txTimes n) = blocksOf n.toNat fb := rfl

theorem playback_txRepeat (fb : Signal) (n : Count) :
    playback fb (.txRepeat n) = levels fb ++ blocksOf n.toNat rs := rfl

theorem playback_txOnce (fb : Signal) (c : Count) : playback fb (.txOnce c) = levels fb := rfl

theorem length_playback_le (fb : Signal) (i : Instr) : (playback fb i).length ≤ 192 * 65536 := by
  cases i with
  | txOnce c =>
    rw [playback_txOnce, length_levels]
    decide
  | txTimes n =>
    rw [playback_txTimes, length_blocksOf]
    omega
  | txRepeat n =>
    rw [playback_txRepeat, List.length_append, length_levels, length_blocksOf]
    omega
  | nop _ | encStd _ | encExt _ | encRaw _ | encRep _ | abort _ => exact Nat.zero_le _

/-! ### The levels a playback has still to deliver -/

/-- The Signal of the current block (41_transmitter.md R146). -/
def blockSignal (s : State) : Signal := if s.phase = .frame then s.fb else rs

/-- The Signal of every later block: the repeat code in REPEAT mode, else the frame (41_transmitter.md R146). -/
def nextSignal (s : State) : Signal := if s.mode = .repeatCode then rs else s.fb

/-- What a playback has still to deliver: the rest of the current block, and REM more. -/
def upcoming (s : State) : List Bool :=
  if s.busy then (levels (blockSignal s)).drop s.idx.toNat ++ blocksOf s.rem.toNat (nextSignal s) else []

theorem upcoming_of_idle {s : State} (hb : s.busy = false) : upcoming s = [] := by simp [upcoming, hb]

theorem upcoming_of_busy {s : State} (hb : s.busy = true) :
    upcoming s = (levels (blockSignal s)).drop s.idx.toNat ++ blocksOf s.rem.toNat (nextSignal s) := by
  simp [upcoming, hb]

theorem currentLevel_eq (s : State) : currentLevel s = level (blockSignal s) s.idx.toNat := by
  rw [currentLevel_eq_ite, blockSignal]
  split <;> rfl

theorem drop_levels {i : Nat} (sig : Signal) (h : i < 192) :
    (levels sig).drop i = level sig i :: (levels sig).drop (i + 1) := by
  have hi : i < (levels sig).length := by rwa [length_levels]
  rw [List.drop_eq_getElem_cons hi, ← List.getD_eq_getElem _ false hi, getD_levels sig h]

theorem upcoming_eq_nil_iff {s : State} (hidx : s.idx ≤ 191) : upcoming s = [] ↔ s.busy = false := by
  have hlt : s.idx.toNat < 192 := Nat.lt_succ_of_le hidx
  rcases Bool.eq_false_or_eq_true s.busy with hb | hb
  · simp [upcoming_of_busy hb, drop_levels _ hlt, hb]
  · simp [upcoming_of_idle hb, hb]

/-- After the last level of a block the next one begins: REM blocks to come are the new block and REM − 1 more. -/
theorem upcoming_tickStep_of_next {s : State} (hb : s.busy = true) (hi : ¬ s.idx < 191) (hr : s.rem ≠ 0) :
    upcoming (tickStep s) = blocksOf s.rem.toNat (nextSignal s) := by
  have hrem : s.rem.toNat = (s.rem - 1).toNat + 1 := by bv_omega
  have hbusy : (tickStep s).busy = true := by rw [tickStep_of_next hi hr]; exact hb
  have hblock : blockSignal (tickStep s) = nextSignal s := by
    rw [tickStep_of_next hi hr, blockSignal, nextSignal]
    by_cases hm : s.mode = .repeatCode <;> simp [hm]
  have hnext : nextSignal (tickStep s) = nextSignal s := by rw [nextSignal, nextSignal, tickStep_mode, tickStep_fb]
  have hidx : (tickStep s).idx.toNat = 0 := by rw [tickStep_of_next hi hr]; rfl
  have hleft : (tickStep s).rem = s.rem - 1 := by rw [tickStep_of_next hi hr]
  rw [upcoming_of_busy hbusy, hblock, hnext, hidx, hleft, List.drop_zero, hrem, blocksOf_succ]

/-- A tick delivers the first of the levels to come and leaves the others (41_transmitter.md R146). -/
theorem upcoming_tickStep {s : State} (hb : s.busy = true) (hidx : s.idx ≤ 191) :
    upcoming s = currentLevel s :: upcoming (tickStep s) := by
  have hlt : s.idx.toNat < 192 := Nat.lt_succ_of_le hidx
  rw [upcoming_of_busy hb, drop_levels _ hlt, ← currentLevel_eq, List.cons_append]
  congr 1
  by_cases hi : s.idx < 191
  · have hnext : (s.idx + 1).toNat = s.idx.toNat + 1 := by bv_omega
    rw [tickStep_of_lt hi, ← hnext]
    exact (upcoming_of_busy (s := { deliver (currentLevel s) s with idx := s.idx + 1 }) hb).symm
  have hend : (levels (blockSignal s)).drop (s.idx.toNat + 1) = [] := by
    have hlast : s.idx.toNat = 191 := by bv_omega
    rw [hlast]
    exact List.drop_eq_nil_of_le (Nat.le_of_eq (length_levels _))
  rw [hend, List.nil_append]
  by_cases hr : s.rem = 0
  · rw [tickStep_of_last hi hr, hr]
    rfl
  · exact (upcoming_tickStep_of_next hb hi hr).symm

/-! ### What a tick leaves -/

theorem tickStep_out (s : State) : (tickStep s).out = currentLevel s := by
  unfold tickStep
  repeat' split
  all_goals rfl

theorem tickStep_sinkcnt (s : State) : (tickStep s).sinkcnt = s.sinkcnt + 1 := by
  unfold tickStep
  repeat' split
  all_goals rfl

theorem tickStep_idx_le (s : State) : (tickStep s).idx ≤ 191 := by
  by_cases hi : s.idx < 191
  · have hnext : s.idx + 1 ≤ 191 := by bv_omega
    rw [tickStep_of_lt hi]
    exact hnext
  · by_cases hr : s.rem = 0
    · rw [tickStep_of_last hi hr]
      simp
    · rw [tickStep_of_next hi hr]
      simp

/-- DONE comes with the tick that clears BUSY, and with no other. -/
theorem tickStep_done {s : State} (hb : s.busy = true) (hd : s.done = false) :
    (tickStep s).done = !(tickStep s).busy := by
  by_cases hi : s.idx < 191
  · rw [tickStep_of_lt hi]
    simp [hb, hd]
  · by_cases hr : s.rem = 0
    · rw [tickStep_of_last hi hr]
      rfl
    · rw [tickStep_of_next hi hr]
      simp [hb, hd]

/-! ### Edges counted in ticks -/

/-- Within a tick the count of whole ticks stays. -/
theorem div_mod_succ_within {j t : Nat} (h : j % t + 1 < t) : (j + 1) / t = j / t ∧ (j + 1) % t = j % t + 1 := by
  have hj := Nat.mod_add_div j t
  refine (Nat.div_mod_unique (by omega)).mpr ⟨?_, h⟩
  omega

/-- At the end of a tick the count of whole ticks goes up. -/
theorem div_mod_succ_at_end {j t : Nat} (h : j % t + 1 = t) : (j + 1) / t = j / t + 1 ∧ (j + 1) % t = 0 := by
  have hj := Nat.mod_add_div j t
  refine (Nat.div_mod_unique (by omega)).mpr ⟨?_, by omega⟩
  rw [Nat.mul_succ]
  omega

theorem of_drop_eq_cons {xs ys : List Bool} {x : Bool} {k : Nat} (h : xs.drop k = x :: ys) :
    xs.getD k false = x ∧ xs.drop (k + 1) = ys := by
  constructor
  · have hhead := congrArg List.head? h
    rw [List.head?_drop, List.head?_cons] at hhead
    rw [List.getD_eq_getElem?_getD, hhead, Option.getD_some]
  · rw [← List.tail_drop, h, List.tail_cons]

/-! ### A playback under way -/

/-- The picture of a playback, with what the transmitter holds to go on: the levels still to deliver are those of the
sequence after the ones delivered, and TCNT counts the edges since the last tick boundary. -/
structure Course (p : List Bool) (out0 : Bool) (j : Nat) (u : State) : Prop extends PlaybackPicture p out0 j u where
  idx_le : u.idx ≤ 191
  upcoming_eq : upcoming u = p.drop (j / u.tickCycles)
  tcnt_eq : u.tcnt = j % u.tickCycles
  abortReq_eq : u.abortReq = false

/-- Between tick boundaries only TCNT moves. -/
theorem Course.count {p : List Bool} {out0 : Bool} {j : Nat} {u : State} (h : Course p out0 j u)
    (hj : j < p.length * u.tickCycles) (hmod : j % u.tickCycles + 1 < u.tickCycles) :
    Course p out0 (j + 1) { u with stb := false, tcnt := u.tcnt + 1 } := by
  obtain ⟨hdiv, hmod'⟩ := div_mod_succ_within hmod
  have hj' : j + 1 < p.length * u.tickCycles := by
    rw [← Nat.div_lt_iff_lt_mul (by omega), hdiv, Nat.div_lt_iff_lt_mul (by omega)]
    exact hj
  constructor
  · constructor
    · simp only [hdiv, h.sinkcnt]
    · simp [hmod']
    · simp only [hdiv, h.out]
    · simp [h.busy, hj, hj']
    · simp only [h.done]
      simp
      omega
  · exact h.idx_le
  · simp only [hdiv]
    exact h.upcoming_eq
  · simp only [hmod', h.tcnt_eq]
  · exact h.abortReq_eq

theorem Course.busy_of_lt {p : List Bool} {out0 : Bool} {j : Nat} {u : State} (h : Course p out0 j u)
    (hj : j < p.length * u.tickCycles) : u.busy = true := by
  rw [h.busy, decide_eq_true hj]

theorem Course.done_of_lt {p : List Bool} {out0 : Bool} {j : Nat} {u : State} (h : Course p out0 j u)
    (hj : j < p.length * u.tickCycles) : u.done = false := by
  rw [h.done, decide_eq_false (Nat.ne_of_lt hj)]

/-- At a tick boundary the next level of the sequence is delivered, and the last one ends the playback. -/
theorem Course.tick {p : List Bool} {out0 : Bool} {j : Nat} {u : State} (h : Course p out0 j u)
    (hj : j < p.length * u.tickCycles) (hmod : j % u.tickCycles + 1 = u.tickCycles) (hlen : p.length < 2 ^ 32) :
    Course p out0 (j + 1) (tickStep { u with stb := false, tcnt := 0 }) := by
  generalize hv : { u with stb := false, tcnt := 0 } = v
  have htc : v.tickCycles = u.tickCycles := by rw [← hv]
  have hpos : 0 < u.tickCycles := by omega
  obtain ⟨hdiv, hmod'⟩ := div_mod_succ_at_end hmod
  have hb : v.busy = true := by rw [← hv]; exact h.busy_of_lt hj
  have hd : v.done = false := by rw [← hv]; exact h.done_of_lt hj
  have hidx : v.idx ≤ 191 := by rw [← hv]; exact h.idx_le
  have hcount : v.sinkcnt.toNat = j / u.tickCycles := by rw [← hv]; exact h.sinkcnt
  have hdrop : p.drop (j / u.tickCycles) = currentLevel v :: upcoming (tickStep v) := by
    rw [← upcoming_tickStep hb hidx, ← h.upcoming_eq, ← hv]
    rfl
  obtain ⟨hlevel, htail⟩ := of_drop_eq_cons hdrop
  have hmore : j / u.tickCycles < p.length := (Nat.div_lt_iff_lt_mul hpos).mpr hj
  have hbusy : (tickStep v).busy = decide (j + 1 < p.length * u.tickCycles) := by
    have hgoes : j + 1 < p.length * u.tickCycles ↔ ¬ p.length ≤ j / u.tickCycles + 1 := by
      rw [← Nat.div_lt_iff_lt_mul hpos, hdiv, Nat.not_le]
    rw [Bool.eq_iff_iff, decide_eq_true_iff, hgoes, ← List.drop_eq_nil_iff, htail,
      upcoming_eq_nil_iff (tickStep_idx_le v), Bool.not_eq_false]
  constructor
  · constructor
    · rw [tickStep_sinkcnt, tickStep_tickCycles, htc, hdiv]
      bv_omega
    · rw [tickStep_stb, tickStep_tickCycles, htc, hmod']
      simp
    · rw [tickStep_out, tickStep_tickCycles, htc, hdiv, Nat.add_sub_cancel, hlevel]
      simp
    · rw [hbusy, tickStep_tickCycles, htc]
    · rw [tickStep_done hb hd, hbusy, tickStep_tickCycles, htc, ← decide_not, decide_eq_decide]
      omega
  · exact tickStep_idx_le v
  · rw [tickStep_tickCycles, htc, hdiv, htail]
  · rw [tickStep_tcnt, tickStep_tickCycles, htc, hmod', ← hv]
  · rw [tickStep_abortReq, ← hv]
    exact h.abortReq_eq

/-- The transmitter's step moves a playback one edge on. -/
theorem Course.after_txStep {p : List Bool} {out0 : Bool} {j : Nat} {u : State} (h : Course p out0 j u)
    (hf : u.tbFault = false) (hj : j < p.length * u.tickCycles) (hlen : p.length < 2 ^ 32) :
    Course p out0 (j + 1) (txStep u) := by
  have hb := h.busy_of_lt hj
  have hpos : 0 < u.tickCycles := Nat.pos_of_ne_zero fun hz => by simp [hz] at hj
  have hlt : j % u.tickCycles < u.tickCycles := Nat.mod_lt j hpos
  have htcnt := h.tcnt_eq
  by_cases hend : j % u.tickCycles + 1 = u.tickCycles
  · rw [txStep_of_tick hb hf (by omega) h.abortReq_eq]
    exact h.tick hj hend hlen
  · rw [txStep_of_count hb hf (by omega)]
    exact h.count hj (by omega)

/-- A playback does not depend on what the host's access lays over the transmitter's step, nor on the environment. -/
theorem Course.overlay {p : List Bool} {out0 : Bool} {j : Nat} {u : State} (h : Course p out0 j u) (d rd : Word)
    (e : BitVec 5) (b : Bool) (l : List Event) :
    Course p out0 j { u with data := d, err := e, rdata := rd, tbFault := b, inputs := l } :=
  { h with }

/-! ### Undisturbed steps -/

/-- An edge without a write is the transmitter's step, whatever is read. -/
theorem exists_clockEdge_of_no_write {p : Pins} (s : State) (hr : p.rstN = true) (hw : p.we = false) :
    ∃ rd, clockEdge p s = .next (runEdge .nothing rd { s with tbFault := p.tbFault }) := by
  cases hre : p.re with
  | false => exact ⟨_, by rw [clockEdge_no_access s hr hw hre, runEdge_nothing]⟩
  | true => exact ⟨_, by rw [clockEdge_read s hr hw hre, runEdge_nothing]⟩

theorem undisturbed_edge_iff (p : Pins) :
    undisturbed (.edge p) = true ↔ p.rstN = true ∧ p.tbFault = false ∧ ¬ (p.we = true ∧ p.re = true) := by
  rw [undisturbed, Bool.and_eq_true, Bool.and_eq_true, Bool.not_eq_true', Bool.not_eq_true', and_assoc,
    ← Bool.not_eq_true (p.we && p.re), Bool.and_eq_true]

theorem writesAbort_of_issuesNext {s : State} {p : Pins} {rest : List Event} {c : Count}
    (hi : s.inputs = .edge p :: rest) (hr : p.rstN = true) (h : issuesNext s (.abort c)) :
    writesAbort (.edge p) = true := by
  obtain ⟨hw, _, haddr, hd⟩ := (issuesNext_iff _ hi hr).mp h
  have hword : cmdWord c 8 = p.wdata := encode_of_decode hd
  simp [writesAbort, hw, haddr, ← hword, opField_cmdWord, rsvField_cmdWord]

/-- A step at an undisturbed event is one admitted action over the transmitter's step, without a time-base fault; an abort
is one that the event writes; and the events after it come from the same list. -/
theorem exists_step_of_undisturbed {s : State} {n : Nat} (h : ∀ x ∈ s.inputs.take (n + 1), undisturbed x = true) :
    ∃ a rd l, Admitted { s with tbFault := false, inputs := l } a ∧
      (a = .abort → ∃ x ∈ s.inputs.take (n + 1), writesAbort x = true) ∧
      step s = .next (runEdge a rd { s with tbFault := false, inputs := l }) ∧
      ∀ x ∈ l.take n, x ∈ s.inputs.take (n + 1) := by
  cases hi : s.inputs with
  | nil =>
    obtain ⟨rd, hedge⟩ := exists_clockEdge_of_no_write (p := quietPins) s rfl rfl
    refine ⟨.nothing, rd, s.inputs, trivial, nofun, (step_of_no_event hi).trans hedge, fun x hx => ?_⟩
    simp [hi] at hx
  | cons e rest =>
    rw [hi] at h
    have he : undisturbed e = true := h e (by simp)
    cases e with
    | edge p =>
      obtain ⟨hr, hf, haccess⟩ := (undisturbed_edge_iff p).mp he
      obtain ⟨t, ht⟩ := (exists_step_eq_next_iff s).mpr fun ⟨q, tail, hq, _, hwe⟩ => by
        obtain ⟨rfl, _⟩ : p = q ∧ rest = tail := by simpa [hi] using hq
        exact haccess hwe
      obtain ⟨a, rd, ha, habort, rfl⟩ := exists_action_of_edge hi hr ht
      rw [sampled, hf] at ha ht
      refine ⟨a, rd, rest, ha, fun hab => ?_, ht, fun x hx => by simp [hx]⟩
      obtain ⟨c, hissue⟩ := habort.mp hab
      exact ⟨.edge p, by simp, writesAbort_of_issuesNext hi hr hissue⟩
    | poll =>
      obtain ⟨rd, hedge⟩ := exists_clockEdge_of_no_write (p := readPins (regOffset .status) false)
        { s with inputs := if s.busy then s.inputs else rest } rfl rfl
      refine ⟨.nothing, rd, _, trivial, nofun, (step_of_poll hi).trans hedge, fun x hx => ?_⟩
      split at hx
      · rw [hi] at hx
        exact List.take_subset_take_left _ (Nat.le_succ n) hx
      · simp [hx]
    | resetFalls | clockStops => simp [undisturbed] at he

/-! ### Runs of a playback -/

theorem Course.after_step {p : List Bool} {out0 : Bool} {j n : Nat} {u : State} (h : Course p out0 j u)
    (hj : j < p.length * u.tickCycles) (hlen : p.length < 2 ^ 32)
    (hcalm : ∀ x ∈ u.inputs.take (n + 1), calm x = true) :
    ∃ v, step u = .next v ∧ Course p out0 (j + 1) v ∧ v.tickCycles = u.tickCycles ∧
      ∀ x ∈ v.inputs.take n, calm x = true := by
  have hboth : ∀ x ∈ u.inputs.take (n + 1), undisturbed x = true ∧ writesAbort x = false := fun x hx => by
    simpa [calm] using hcalm x hx
  obtain ⟨a, rd, l, ha, habort, hstep, hl⟩ := exists_step_of_undisturbed fun x hx => (hboth x hx).1
  have hno : a ≠ .abort := fun hab => by
    obtain ⟨x, hx, hwrites⟩ := habort hab
    simp [(hboth x hx).2] at hwrites
  obtain ⟨hframe, hstart⟩ := ha.ne_frame_and_ne_start (h.busy_of_lt hj)
  obtain ⟨d, e, hedge⟩ := exists_runEdge_eq hframe hstart rd { u with tbFault := false, inputs := l }
  have hnext : Course p out0 (j + 1) (txStep { u with tbFault := false, inputs := l }) :=
    (h.overlay _ _ _ false l).after_txStep rfl hj hlen
  refine ⟨_, hstep, ?_, runEdge_tickCycles _ _ _, fun x hx => ?_⟩
  · rw [hedge, decide_eq_false hno, Bool.and_false, Bool.or_false]
    exact hnext.overlay d rd e _ _
  · rw [runEdge_inputs] at hx
    exact hcalm x (hl x hx)

/-- A playback runs its course, edge by edge, while the events are calm (41_transmitter.md R145). -/
theorem Course.after_run {p : List Bool} {out0 : Bool} {j : Nat} {u : State} (n : Nat) (h : Course p out0 j u)
    (hj : j + n ≤ p.length * u.tickCycles) (hlen : p.length < 2 ^ 32)
    (hcalm : ∀ x ∈ u.inputs.take n, calm x = true) :
    ∃ v, core.run n u = .next v ∧ v.tickCycles = u.tickCycles ∧ Course p out0 (j + n) v := by
  induction n generalizing j u with
  | zero => exact ⟨u, run_zero u, rfl, h⟩
  | succ n ih =>
    obtain ⟨v, hstep, hv, htc, hcalm'⟩ := h.after_step (by omega) hlen hcalm
    obtain ⟨w, hrun, htc', hw⟩ := ih hv (by rw [htc]; omega) hcalm'
    refine ⟨w, (run_succ n hstep).trans hrun, htc'.trans htc, ?_⟩
    rwa [Nat.add_right_comm, Nat.add_assoc] at hw

/-! ### The start of a playback -/

/-- The state an accepted transmit command leaves (41_transmitter.md section 6). -/
def started (mode : Mode) (rem0 : Count) (s : State) : State :=
  { s with
    mode := mode, sinkcnt := 0, done := false, abortReq := false, busy := true, phase := .frame, idx := 0, rem := rem0,
    tcnt := 0, stb := false, rdata := 0 }

/-- The sequence of R152: the frame, then REM blocks of the mode's Signal. -/
theorem upcoming_started (mode : Mode) (rem0 : Count) (s : State) : upcoming (started mode rem0 s) =
    levels s.fb ++ blocksOf rem0.toNat (if mode = .repeatCode then rs else s.fb) := rfl

theorem course_started {mode : Mode} {rem0 : Count} {s : State} (htc : 1 ≤ s.tickCycles) :
    Course (upcoming (started mode rem0 s)) s.out 0 (started mode rem0 s) := by
  have hlen : 0 < (upcoming (started mode rem0 s)).length := by
    rw [upcoming_started, List.length_append, length_levels]
    omega
  have hpos : 0 < (upcoming (started mode rem0 s)).length * (started mode rem0 s).tickCycles := Nat.mul_pos hlen htc
  constructor
  · constructor
    · simp [started]
    · rfl
    · simp [started]
    · rw [decide_eq_true hpos]
      rfl
    · rw [decide_eq_false (Nat.ne_of_lt hpos)]
      rfl
  · simp [started]
  · simp
  · simp [started]
  · rfl

/-- An accepted transmit command starts the playback of its sequence, unless that is empty. -/
theorem exists_exec_eq_started {s : State} {i : Instr} (hi : isTransmit i = true) (hb : s.busy = false)
    (hv : s.fbv = true) (hf : s.tbFault = false) (hne : playback s.fb i ≠ []) :
    ∃ mode rem0, exec i s = .next (started mode rem0 s) ∧ playback s.fb i = upcoming (started mode rem0 s) := by
  cases i with
  | txOnce c =>
    refine ⟨_, _, exec_transmit_of_accepted rfl (by decide) hb hv hf, ?_⟩
    rw [playback_txOnce, upcoming_started]
    exact (List.append_nil _).symm
  | txTimes n =>
    have hn : n.toNat ≠ 0 := fun hz => hne (by rw [playback_txTimes, hz]; rfl)
    have hrem : n.toNat = (n - 1).toNat + 1 := by bv_omega
    refine ⟨_, _, exec_transmit_of_accepted rfl hn hb hv hf, ?_⟩
    rw [playback_txTimes, hrem, blocksOf_succ]
    rfl
  | txRepeat n =>
    refine ⟨_, _, exec_transmit_of_accepted rfl (by omega) hb hv hf, ?_⟩
    rw [playback_txRepeat, upcoming_started, if_pos rfl]
  | nop _ | encStd _ | encExt _ | encRaw _ | encRep _ | abort _ => simp [isTransmit] at hi

/-! ### An abort on its way -/

/-- A playback with its abort pending, and the counts it will end with (41_transmitter.md R147). -/
structure AbortPending (done0 : Bool) (count0 : Word) (u : State) : Prop where
  busy : u.busy = true
  abortReq : u.abortReq = true
  done : u.done = done0
  sinkcnt : u.sinkcnt = count0

/-- What an abort leaves: an idle transmitter that delivered nothing more, with ERR.ABORTED set (41_transmitter.md
R147). -/
structure AbortDone (done0 : Bool) (count0 : Word) (u : State) : Prop where
  busy : u.busy = false
  out : u.out = false
  stb : u.stb = false
  tcnt : u.tcnt = 0
  err : u.err.getLsbD 3 = true
  done : u.done = done0
  sinkcnt : u.sinkcnt = count0

/-- An edge of a playback with its abort pending, without a time-base fault: TCNT counts on, or the boundary takes the
abort. -/
theorem AbortPending.after_edge {done0 : Bool} {count0 : Word} {u : State} {a : HostAction} (rd : Word)
    (h : AbortPending done0 count0 u) (hf : u.tbFault = false) (ha : Admitted u a) :
    (u.tcnt ≠ u.tickCycles - 1 →
      AbortPending done0 count0 (runEdge a rd u) ∧ (runEdge a rd u).tcnt = u.tcnt + 1) ∧
    (u.tcnt = u.tickCycles - 1 → AbortDone done0 count0 (runEdge a rd u)) := by
  obtain ⟨hframe, hstart⟩ := ha.ne_frame_and_ne_start h.busy
  obtain ⟨d, e, hedge⟩ := exists_runEdge_eq hframe hstart rd u
  refine ⟨fun ht => ?_, fun ht => ?_⟩
  · rw [hedge, txStep_of_count h.busy hf ht]
    exact ⟨⟨h.busy, by simp [h.abortReq], h.done, h.sinkcnt⟩, rfl⟩
  · have hraised : (txRaised u).getLsbD 3 = true := by
      rw [txRaised_of_abort h.busy hf ht h.abortReq]
      rfl
    have herr := getLsbD_runEdge_err a rd hraised
    rw [hedge, txStep_of_abort h.busy hf ht h.abortReq] at herr ⊢
    exact ⟨rfl, rfl, rfl, rfl, herr, h.done, h.sinkcnt⟩

theorem AbortPending.after_step {done0 : Bool} {count0 : Word} {u : State} {n : Nat} (h : AbortPending done0 count0 u)
    (hcalm : ∀ x ∈ u.inputs.take (n + 1), undisturbed x = true) :
    ∃ v, step u = .next v ∧ v.tickCycles = u.tickCycles ∧ (∀ x ∈ v.inputs.take n, undisturbed x = true) ∧
      (u.tcnt ≠ u.tickCycles - 1 → AbortPending done0 count0 v ∧ v.tcnt = u.tcnt + 1) ∧
      (u.tcnt = u.tickCycles - 1 → AbortDone done0 count0 v) := by
  obtain ⟨a, rd, l, ha, _, hstep, hl⟩ := exists_step_of_undisturbed hcalm
  have hsampled : AbortPending done0 count0 { u with tbFault := false, inputs := l } := { h with }
  refine ⟨_, hstep, runEdge_tickCycles _ _ _, fun x hx => ?_, hsampled.after_edge rd rfl ha⟩
  rw [runEdge_inputs] at hx
  exact hcalm x (hl x hx)

/-- The abort waits for the tick boundary `d` edges ahead, and is taken at the edge after them. -/
theorem AbortPending.after_run {done0 : Bool} {count0 : Word} {u : State} {d : Nat} (h : AbortPending done0 count0 u)
    (hd : u.tcnt + d = u.tickCycles - 1) (hcalm : ∀ x ∈ u.inputs.take (d + 1), undisturbed x = true) :
    (∀ j ≤ d, ∃ v, core.run j u = .next v ∧ AbortPending done0 count0 v) ∧
      ∃ v, core.run (d + 1) u = .next v ∧ AbortDone done0 count0 v := by
  induction d generalizing u with
  | zero =>
    obtain ⟨v, hstep, _, _, _, hdone⟩ := h.after_step hcalm
    refine ⟨fun j hj => ?_, v, (run_succ 0 hstep).trans (run_zero v), hdone hd⟩
    rw [Nat.le_zero.mp hj]
    exact ⟨u, run_zero u, h⟩
  | succ d ih =>
    obtain ⟨v, hstep, htc, hcalm', hgoes, _⟩ := h.after_step hcalm
    obtain ⟨hv, htcnt⟩ := hgoes (by omega)
    obtain ⟨hwait, w, hrun, hw⟩ := ih hv (by omega) hcalm'
    refine ⟨fun j hj => ?_, w, (run_succ _ hstep).trans hrun, hw⟩
    cases j with
    | zero => exact ⟨u, run_zero u, h⟩
    | succ j =>
      obtain ⟨x, hx, hpending⟩ := hwait j (by omega)
      exact ⟨x, (run_succ j hstep).trans hx, hpending⟩

theorem txStep_tcnt_le {s : State} (h : s.tcnt ≤ s.tickCycles - 1) : (txStep s).tcnt ≤ s.tickCycles - 1 := by
  rcases txStep_cases s with ⟨_, hs⟩ | ⟨_, _, hs⟩ | ⟨_, _, ht, hs⟩ | ⟨_, _, _, _, hs⟩ | ⟨_, _, _, _, _, hs⟩ |
    ⟨_, _, _, _, _, _, hs⟩ | ⟨_, _, _, _, _, _, hs⟩ <;> rw [hs]
  · exact h
  · exact Nat.zero_le _
  · exact Nat.lt_of_le_of_ne h ht
  · exact Nat.zero_le _
  · exact Nat.zero_le _
  · exact Nat.zero_le _
  · exact Nat.zero_le _

/-! ### The obligations -/

/-- Settles O57: the start is the course of the playback at edge 0, and every calm edge moves it one on. -/
theorem playbackDeliversItsSequence : Obligations.PlaybackDeliversItsSequence := by
  intro s i hi hb hv hf htc hne j hj hcalm
  have hlen : (playback s.fb i).length < 2 ^ 32 := Nat.lt_of_le_of_lt (length_playback_le s.fb i) (by decide)
  obtain ⟨mode, rem0, hexec, hplay⟩ := exists_exec_eq_started hi hb hv hf hne
  rw [hplay] at hj hlen ⊢
  obtain ⟨u, hrun, htick, hu⟩ := (course_started htc).after_run j (by rwa [Nat.zero_add]) hlen hcalm
  rw [Nat.zero_add] at hu
  exact ⟨_, u, hexec, hrun, htick, hu.toPlaybackPicture⟩

/-- Settles O58: the sequences are made of blocks of 192 levels. -/
theorem playbackLengths : Obligations.PlaybackLengths := by
  intro fb c n
  have hrepeat : (playback fb (.txRepeat n)).length = 192 * (1 + n.toNat) := by
    rw [playback_txRepeat, List.length_append, length_levels, length_blocksOf]
    omega
  refine ⟨length_levels fb, length_blocksOf _ fb, hrepeat, fun k => ⟨getD_levels fb, getD_blocksOf fb,
    getD_levels_append fb _, fun hlo hhi => ?_⟩⟩
  have hmod : k % 192 = (k - 192) % 192 := Nat.mod_eq_sub_mod hlo
  rw [playback_txRepeat, getD_levels_append_right fb _ hlo, getD_blocksOf rs (by omega), hmod]

/-- Settles O59: the request is pending after its edge, and TCNT counts to the boundary that takes it. -/
theorem abortLatency : Obligations.AbortLatency := by
  intro s c hb htcnt htc hgoes
  have hbusy : (txStep s).busy = true := by rwa [← txStep_busy_eq_false_iff hb, Bool.not_eq_false] at hgoes
  generalize ht : { txStep s with abortReq := true, rdata := 0 } = t
  have hpending : AbortPending t.done t.sinkcnt t := by
    rw [← ht]
    exact ⟨hbusy, rfl, rfl, rfl⟩
  have hcount : t.tcnt ≤ s.tickCycles - 1 := by rw [← ht]; exact txStep_tcnt_le htcnt
  have htick : t.tickCycles = s.tickCycles := by rw [← ht]; exact txStep_tickCycles s
  have hinputs : t.inputs = s.inputs := by rw [← ht]; exact txStep_inputs s
  obtain ⟨d, hd⟩ : ∃ d, s.tickCycles - t.tcnt = d + 1 := ⟨s.tickCycles - t.tcnt - 1, by omega⟩
  refine ⟨t, d + 1, ht ▸ exec_abort_of_playing c hb hgoes, hd.symm, by omega, by omega, fun hcalm => ?_⟩
  obtain ⟨hwait, u, hrun, hu⟩ := hpending.after_run (d := d) (by omega) (by rwa [hinputs])
  refine ⟨fun j hj => ?_, u, hrun, hu.busy, hu.out, hu.stb, hu.tcnt, hu.err, hu.done, hu.sinkcnt⟩
  obtain ⟨v, hv, hstill⟩ := hwait j (by omega)
  exact ⟨v, hv, hstill.busy, hstill.sinkcnt⟩

end Sys2Proof.Machine
end

/-! ## Proofs: the host's lines and pseudo-instructions (30_encoding.md R90 to R92) -/

section

namespace Sys2Proof.Machine

/-! ### The DATA words of the send and hold forms -/

/-- A field of DATA written as a shifted operand above another one. -/
theorem shiftLeft_or_eq {a w : Nat} (c : Nat) (ha : a < 2 ^ w) : c <<< w ||| a = c * 2 ^ w + a := by
  rw [← Nat.shiftLeft_add_eq_or_of_lt ha, Nat.shiftLeft_eq]

theorem toNat_extractLsb'_ofNat (v start len : Nat) (hv : v < 2 ^ 32) :
    ((BitVec.ofNat 32 v).extractLsb' start len).toNat = v / 2 ^ start % 2 ^ len := by
  rw [BitVec.extractLsb'_toNat, BitVec.toNat_ofNat, Nat.mod_eq_of_lt hv, Nat.shiftRight_eq_div_pow]

theorem stdOperands {a c : Nat} (ha : a < 256) (hc : c < 256) :
    (stdAddress (BitVec.ofNat 32 (c <<< 8 ||| a))).toNat = a ∧
      (stdCommand (BitVec.ofNat 32 (c <<< 8 ||| a))).toNat = c := by
  have hword : c <<< 8 ||| a = c * 256 + a := shiftLeft_or_eq c ha
  rw [hword, stdAddress, stdCommand, toNat_extractLsb'_ofNat _ _ _ (by omega),
    toNat_extractLsb'_ofNat _ _ _ (by omega)]
  omega

theorem extOperands {a c : Nat} (ha : a < 65536) (hc : c < 256) :
    (extAddress (BitVec.ofNat 32 (c <<< 16 ||| a))).toNat = a ∧
      (extCommand (BitVec.ofNat 32 (c <<< 16 ||| a))).toNat = c := by
  have hword : c <<< 16 ||| a = c * 65536 + a := shiftLeft_or_eq c ha
  rw [hword, extAddress, extCommand, toNat_extractLsb'_ofNat _ _ _ (by omega),
    toNat_extractLsb'_ofNat _ _ _ (by omega)]
  omega

/-! ### Well-formed expansions -/

@[simp] theorem wf_cmd (c : CmdName) : (Line.cmd c).wf = true := rfl

@[simp] theorem wf_wait : Line.wait.wf = true := rfl

@[simp] theorem wf_txTimes (n : Nat) : (Line.txTimes n).wf = decide (n < 2 ^ Config.countW) := rfl

@[simp] theorem wf_txRepeat (n : Nat) : (Line.txRepeat n).wf = decide (n < 2 ^ Config.countW) := rfl

theorem wf_ldDataLine {v : Nat} (h : v < 2 ^ 32) : (ldDataLine v).wf = true := by
  simpa [ldDataLine, Line.wf] using h

theorem wf_ldDataLine_std {a c : Nat} (ha : a < 256) (hc : c < 256) : (ldDataLine (c <<< 8 ||| a)).wf = true := by
  have hword : c <<< 8 ||| a = c * 256 + a := shiftLeft_or_eq c ha
  exact wf_ldDataLine (by omega)

theorem wf_ldDataLine_ext {a c : Nat} (ha : a < 65536) (hc : c < 256) : (ldDataLine (c <<< 16 ||| a)).wf = true := by
  have hword : c <<< 16 ||| a = c * 65536 + a := shiftLeft_or_eq c ha
  exact wf_ldDataLine (by omega)

/-- Operands in range give a DATA word and a count in range (30_encoding.md R92). -/
theorem wf_of_mem_expand {p : Pseudo} (hp : p.wf = true) : ∀ l ∈ expand p, l.wf = true := by
  cases p with
  | ldData v | sendRaw v =>
    have hv : v < 2 ^ 32 := by simpa [Pseudo.wf] using hp
    simp [expand, wf_ldDataLine hv]
  | wait => simp [expand]
  | clrErr => simp [expand, Line.wf]
  | sendStd a c =>
    obtain ⟨ha, hc⟩ : a < 256 ∧ c < 256 := by simpa [Pseudo.wf] using hp
    simp [expand, wf_ldDataLine_std ha hc]
  | sendExt a c =>
    obtain ⟨ha, hc⟩ : a < 65536 ∧ c < 256 := by simpa [Pseudo.wf] using hp
    simp [expand, wf_ldDataLine_ext ha hc]
  | holdStd a c n =>
    obtain ⟨⟨ha, hc⟩, hn⟩ : (a < 256 ∧ c < 256) ∧ n < 2 ^ Config.countW := by simpa [Pseudo.wf] using hp
    simp [expand, wf_ldDataLine_std ha hc, hn]
  | holdExt a c n =>
    obtain ⟨⟨ha, hc⟩, hn⟩ : (a < 65536 ∧ c < 256) ∧ n < 2 ^ Config.countW := by simpa [Pseudo.wf] using hp
    simp [expand, wf_ldDataLine_ext ha hc, hn]
  | resend n =>
    have hn : n < 2 ^ Config.countW := by simpa [Pseudo.wf] using hp
    simp [expand, hn]

/-! ### Lines as accesses of the port -/

theorem wordIndex_cmd : wordIndex (regOffset .cmd) = 0 := by decide

theorem toNat_offset {off : Nat} (h : off ≤ 0xFC) : (BitVec.ofNat 8 off).toNat = off := by
  rw [BitVec.toNat_ofNat, Nat.mod_eq_of_lt (by omega)]

theorem issuesNext_of_writePins {s : State} {rest : List Event} {f : Bool} {i : Instr}
    (h : s.inputs = .edge (writePins (regOffset .cmd) (encode i) f) :: rest) : issuesNext s i :=
  ⟨_, rest, ⟨h, rfl, rfl, rfl⟩, wordIndex_cmd, decode_encode i⟩

/-! ### The obligation -/

/-- Settles O60: the table of R92 is the definition of `expand`, and each line is one edge of the port. -/
theorem hostLinesReachTheirCommands : Obligations.HostLinesReachTheirCommands := by
  refine ⟨fun _ _ _ _ => ⟨rfl, rfl, rfl, rfl, rfl, rfl, rfl, rfl, rfl⟩, by decide, fun _ => wf_of_mem_expand,
    fun _ _ => stdOperands, fun _ _ => extOperands, fun s rest f => ⟨fun n hn => ⟨fun h => ?_, fun h => ?_⟩,
      fun c h => issuesNext_of_writePins h, fun off v hwf h => ?_, fun off hwf h => ?_, id⟩⟩
  · exact ⟨_, issuesNext_of_writePins h, Nat.mod_eq_of_lt hn⟩
  · exact ⟨_, issuesNext_of_writePins h, Nat.mod_eq_of_lt hn⟩
  · obtain ⟨⟨hoff, _⟩, hv⟩ : (off ≤ 0xFC ∧ off % 4 = 0) ∧ v < 2 ^ 32 := by simpa [Line.wf] using hwf
    exact ⟨_, ⟨h, rfl, rfl, rfl⟩, toNat_offset hoff, Nat.mod_eq_of_lt hv, rfl⟩
  · obtain ⟨hoff, _⟩ : off ≤ 0xFC ∧ off % 4 = 0 := by simpa [Line.wf] using hwf
    exact ⟨_, h, rfl, rfl, rfl, toNat_offset hoff, rfl⟩

end Sys2Proof.Machine
end
